-- ==== Sys2Proof/Word.lean ====
section
/-! DEFINITION. The word types of the OZ9640 (spec 00_scope.md R9, R11). -/
namespace Sys2Proof

/-- A byte of 8 bits (R9). -/
abbrev Byte := BitVec 8
/-- A 32-bit value: a lane register, a window entry, a rejoin mask (R92). -/
abbrev Word := BitVec 32
/-- A 64-bit value: an `s` register, a register pair, a tagged pointer (R25, R173). -/
abbrev W64 := BitVec 64
/-- A 128-bit value: a register quad or 16-byte access (R24). -/
abbrev W128 := BitVec 128
/-- A program counter or virtual address (R18, R177). -/
abbrev Va := BitVec 48

/-- ZeroExtend(x, n) of R17. -/
abbrev zext {w : Nat} (n : Nat) (x : BitVec w) : BitVec n := x.setWidth n
/-- SignExtend(x, n) of R17. -/
abbrev sext {w : Nat} (n : Nat) (x : BitVec w) : BitVec n := x.signExtend n

end Sys2Proof
end

