-- ==== Sys2Proof/Syntax.lean ====
section
/-! DEFINITION. The instructions of the OZ9640: one constructor per row of the opcode table. The 186
32-bit instructions carry the fields of their format (R21), the 16 short forms those of R32. The 147
steps the table lists without an encoding are constructors too: the work of the engines, walkers,
links and controllers, with what the spec leaves to the device or to the outside as arguments. -/
namespace Sys2Proof

/-- RRR, MEM, MEM-S, ENG/SYS and FRG words (R21): S, d [15:10], a [21:16], b [27:22] and
x [31:28], which is the guard or the sub-op. -/
structure Rrr where
  s : BitVec 1
  d : BitVec 6
  a : BitVec 6
  b : BitVec 6
  x : BitVec 4
  deriving DecidableEq, Repr

/-- RRI words (R21): imm10 in [31:22]. -/
structure Rri where
  s : BitVec 1
  d : BitVec 6
  a : BitVec 6
  imm : BitVec 10
  deriving DecidableEq, Repr

/-- RI16 words (R21): imm16 in [31:16]. -/
structure Ri16 where
  s : BitVec 1
  d : BitVec 6
  imm : BitVec 16
  deriving DecidableEq, Repr

/-- BR words (R21): offset18 in [27:10], guard x in [31:28]. -/
structure Br where
  s : BitVec 1
  off : BitVec 18
  x : BitVec 4
  deriving DecidableEq, Repr

/-- BRL words (R21): offset22 in [31:10]. -/
structure Brl where
  s : BitVec 1
  off : BitVec 22
  deriving DecidableEq, Repr

/-- The 16-bit format (R32): d in [10:6], b in [15:11]. -/
structure H16 where
  s : BitVec 1
  d : BitVec 5
  b : BitVec 5
  deriving DecidableEq, Repr

/-- The access paths of R209, by observer class index (R29, R39). -/
inductive Path where
  | core | copy | matrix | comb | peer | host
  deriving DecidableEq, Repr

/-- What the host answers to an ATS Translation Request (R394). -/
inductive AtsReply where
  | page (host : W64) (r w : Bool)
  | absent
  | unsupported
  deriving DecidableEq, Repr

/-- What a peer asks of an exported region (R193, R403, R404): a read, a write, a `st.rel`, a write for an E or EIR page,
whose bytes travel encrypted with an IV and a tag, or an atomic. -/
inductive PeerOp where
  | read (n : Nat)
  | write (data : List Byte)
  | release (data : List Byte)
  | sealed (strong : Bool) (iv : BitVec 96) (data : List Byte) (tag : BitVec 128)
  | atomic (op size : Nat) (v : W128)
  deriving DecidableEq, Repr

/-- One constructor per row of the opcode table. -/
inductive Instr where
  /-- `MOV` (R106). -/
  | mov (f : Rrr)
  /-- `IADD` (R106). -/
  | iadd (f : Rrr)
  /-- `ISUB` (R106). -/
  | isub (f : Rrr)
  /-- `IMUL` (R106). -/
  | imul (f : Rrr)
  /-- `IMULH_S` (R106). -/
  | imulhS (f : Rrr)
  /-- `IMULH_U` (R106). -/
  | imulhU (f : Rrr)
  /-- `IMAD` (R106). -/
  | imad (f : Rrr)
  /-- `IADD_I64` (R107). -/
  | iaddI64 (f : Rrr)
  /-- `ISUB_I64` (R107). -/
  | isubI64 (f : Rrr)
  /-- `IMUL_I64` (R107). -/
  | imulI64 (f : Rrr)
  /-- `AND` (R106). -/
  | bitAnd (f : Rrr)
  /-- `OR` (R106). -/
  | bitOr (f : Rrr)
  /-- `XOR` (R106). -/
  | bitXor (f : Rrr)
  /-- `SHL` (R106). -/
  | shl (f : Rrr)
  /-- `SHR_U` (R106). -/
  | shrU (f : Rrr)
  /-- `SHR_S` (R106). -/
  | shrS (f : Rrr)
  /-- `IMIN_S` (R106). -/
  | iminS (f : Rrr)
  /-- `IMAX_S` (R106). -/
  | imaxS (f : Rrr)
  /-- `IMIN_U` (R106). -/
  | iminU (f : Rrr)
  /-- `IMAX_U` (R106). -/
  | imaxU (f : Rrr)
  /-- `POPC` (R106). -/
  | popc (f : Rrr)
  /-- `CLZ` (R106). -/
  | clz (f : Rrr)
  /-- `BFX` (R108). -/
  | bfx (f : Rrr)
  /-- `BFI` (R108). -/
  | bfi (f : Rrr)
  /-- `ICMP` (R111). -/
  | icmp (f : Rrr)
  /-- `ICMP_I64` (R111). -/
  | icmpI64 (f : Rrr)
  /-- `ISEL` (R112). -/
  | isel (f : Rrr)
  /-- `MOVI` (R110). -/
  | movi (f : Ri16)
  /-- `MOVHI` (R110). -/
  | movhi (f : Ri16)
  /-- `IADDI` (R109). -/
  | iaddi (f : Rri)
  /-- `ANDI` (R109). -/
  | andi (f : Rri)
  /-- `ORI` (R109). -/
  | ori (f : Rri)
  /-- `SHLI` (R109). -/
  | shli (f : Rri)
  /-- `SHRI_U` (R109). -/
  | shriU (f : Rri)
  /-- `SHRI_S` (R109). -/
  | shriS (f : Rri)
  /-- `LEA_TP` (R208). -/
  | leaTp (f : Rrr)
  /-- `RDSP` (R91). -/
  | rdsp (f : Rrr)
  /-- `PSET` (R113). -/
  | pset (f : Rrr)
  /-- `PREDV` (R114). -/
  | predv (f : Rrr)
  /-- `VPRED` (R114). -/
  | vpred (f : Rrr)
  /-- `SHAPE` (R118). -/
  | shape (f : Rrr)
  /-- `UNIFY` (R119). -/
  | unify (f : Rrr)
  /-- `XLANE_FROM` (R116). -/
  | xlaneFrom (f : Rrr)
  /-- `XLANE_BACK` (R116). -/
  | xlaneBack (f : Rrr)
  /-- `XLANE_FWD` (R116). -/
  | xlaneFwd (f : Rrr)
  /-- `XLANE_FLIP` (R116). -/
  | xlaneFlip (f : Rrr)
  /-- `BCAST` (R117). -/
  | bcast (f : Rrr)
  /-- `MATCH` (R120). -/
  | matchKey (f : Rrr)
  /-- `MRED` (R121). -/
  | mred (f : Rrr)
  /-- `FADD` (R141). -/
  | fadd (f : Rrr)
  /-- `FSUB` (R141). -/
  | fsub (f : Rrr)
  /-- `FMUL` (R141). -/
  | fmul (f : Rrr)
  /-- `FFMA` (R141). -/
  | ffma (f : Rrr)
  /-- `FOP_RM` (R143). -/
  | fopRm (f : Rrr)
  /-- `FMIN` (R142). -/
  | fmin (f : Rrr)
  /-- `FMAX` (R142). -/
  | fmax (f : Rrr)
  /-- `FABS` (R141). -/
  | fabs (f : Rrr)
  /-- `FNEG` (R141). -/
  | fneg (f : Rrr)
  /-- `FCMP` (R144). -/
  | fcmp (f : Rrr)
  /-- `FRCP` (R145). -/
  | frcp (f : Rrr)
  /-- `FRSQ` (R145). -/
  | frsq (f : Rrr)
  /-- `FSQRT` (R145). -/
  | fsqrt (f : Rrr)
  /-- `FEX2` (R145). -/
  | fex2 (f : Rrr)
  /-- `FLG2` (R145). -/
  | flg2 (f : Rrr)
  /-- `FSIN` (R145). -/
  | fsin (f : Rrr)
  /-- `FCOS` (R145). -/
  | fcos (f : Rrr)
  /-- `HOP2` (R147). -/
  | hop2 (f : Rrr)
  /-- `HDOT2` (R148). -/
  | hdot2 (f : Rrr)
  /-- `CVT_F_I` (R149). -/
  | cvtFI (f : Rrr)
  /-- `CVT_I_F` (R149). -/
  | cvtIF (f : Rrr)
  /-- `CVT_H_F` (R150). -/
  | cvtHF (f : Rrr)
  /-- `CVT_F_H` (R150). -/
  | cvtFH (f : Rrr)
  /-- `CVT_Q_F` (R150). -/
  | cvtQF (f : Rrr)
  /-- `CVT_F_Q` (R150). -/
  | cvtFQ (f : Rrr)
  /-- `PACK_H2` (R151). -/
  | packH2 (f : Rrr)
  /-- `PACK_Q4` (R151). -/
  | packQ4 (f : Rrr)
  /-- `ZBENC` (R152). -/
  | zbenc (f : Rrr)
  /-- `ZBDEC` (R153). -/
  | zbdec (f : Rrr)
  /-- `LBIND` (R157). -/
  | lbind (f : Rrr)
  /-- `LFREE` (R158). -/
  | lfree (f : Rrr)
  /-- `LADD` (R164). -/
  | ladd (f : Rrr)
  /-- `LSUB` (R164). -/
  | lsub (f : Rrr)
  /-- `LNEG` (R164). -/
  | lneg (f : Rrr)
  /-- `LSHL` (R165). -/
  | lshl (f : Rrr)
  /-- `LSHR_U` (R165). -/
  | lshrU (f : Rrr)
  /-- `LSHR_S` (R165). -/
  | lshrS (f : Rrr)
  /-- `LROT` (R166). -/
  | lrot (f : Rrr)
  /-- `LMAD` (R164). -/
  | lmad (f : Rrr)
  /-- `LSPILL` (R168). -/
  | lspill (f : Rrr)
  /-- `LCMP` (R167). -/
  | lcmp (f : Rrr)
  /-- `LLD` (R170). -/
  | lld (f : Rrr)
  /-- `LST` (R170). -/
  | lst (f : Rrr)
  /-- `LSTAT` (R169). -/
  | lstat (f : Rrr)
  /-- `LD_Z8` (R202). -/
  | ldZ8 (f : Rrr)
  /-- `LD_S8` (R202). -/
  | ldS8 (f : Rrr)
  /-- `LD_Z16` (R202). -/
  | ldZ16 (f : Rrr)
  /-- `LD_S16` (R202). -/
  | ldS16 (f : Rrr)
  /-- `LD_B32` (R202). -/
  | ldB32 (f : Rrr)
  /-- `LD_B64` (R202). -/
  | ldB64 (f : Rrr)
  /-- `LD_B128` (R202). -/
  | ldB128 (f : Rrr)
  /-- `ST_B8` (R202). -/
  | stB8 (f : Rrr)
  /-- `ST_B16` (R202). -/
  | stB16 (f : Rrr)
  /-- `ST_B32` (R202). -/
  | stB32 (f : Rrr)
  /-- `ST_B64` (R202). -/
  | stB64 (f : Rrr)
  /-- `ST_B128` (R202). -/
  | stB128 (f : Rrr)
  /-- `LD_ACQ_B32` (R204). -/
  | ldAcqB32 (f : Rrr)
  /-- `LD_ACQ_B64` (R204). -/
  | ldAcqB64 (f : Rrr)
  /-- `ST_REL_B32` (R204). -/
  | stRelB32 (f : Rrr)
  /-- `ST_REL_B64` (R204). -/
  | stRelB64 (f : Rrr)
  /-- `ATOM_ADD` (R205). -/
  | atomAdd (f : Rrr)
  /-- `ATOM_MIN_S` (R205). -/
  | atomMinS (f : Rrr)
  /-- `ATOM_MAX_S` (R205). -/
  | atomMaxS (f : Rrr)
  /-- `ATOM_AND` (R205). -/
  | atomAnd (f : Rrr)
  /-- `ATOM_OR` (R205). -/
  | atomOr (f : Rrr)
  /-- `ATOM_XOR` (R205). -/
  | atomXor (f : Rrr)
  /-- `ATOM_XCHG` (R205). -/
  | atomXchg (f : Rrr)
  /-- `ATOM_CAS` (R205). -/
  | atomCas (f : Rrr)
  /-- `ATOM_FADD` (R205). -/
  | atomFadd (f : Rrr)
  /-- `ATOM_BFADD2` (R205). -/
  | atomBfadd2 (f : Rrr)
  /-- `RED_ADD` (R206). -/
  | redAdd (f : Rrr)
  /-- `RED_FADD` (R206). -/
  | redFadd (f : Rrr)
  /-- `CACHE` (R207). -/
  | cache (f : Rrr)
  /-- `FENCE` (R219). -/
  | fence (f : Rrr)
  /-- `XFENCE` (R220). -/
  | xfence (f : Rrr)
  /-- `FORAGE` (R265). -/
  | forage (f : Rrr)
  /-- `FORAGE_TRY` (R267). -/
  | forageTry (f : Rrr)
  /-- `HOME` (R271). -/
  | home (f : Rrr)
  /-- `FSTAT` (R273). -/
  | fstat (f : Rrr)
  /-- `BR` (R81). -/
  | br (f : Br)
  /-- `BR_L` (R81). -/
  | brL (f : Brl)
  /-- `CALL` (R81). -/
  | call (f : Br)
  /-- `CALL_L` (R81). -/
  | callL (f : Brl)
  /-- `CALLR` (R81). -/
  | callr (f : Rrr)
  /-- `JR` (R81). -/
  | jr (f : Rrr)
  /-- `RET` (R81). -/
  | ret (f : Rrr)
  /-- `EXIT` (R82). -/
  | exit (f : Rrr)
  /-- `JSET` (R83). -/
  | jset (f : Rrr)
  /-- `JADD` (R83). -/
  | jadd (f : Rrr)
  /-- `JOIN` (R84). -/
  | join (f : Rrr)
  /-- `TRAIL` (R85). -/
  | trail (f : Rrr)
  /-- `WAITR` (R86). -/
  | waitr (f : Rrr)
  /-- `VOTE` (R87). -/
  | vote (f : Rrr)
  /-- `WQ_PUSH` (R88). -/
  | wqPush (f : Rrr)
  /-- `WQ_POP` (R89). -/
  | wqPop (f : Rrr)
  /-- `BRK` (R90). -/
  | brk (f : Rrr)
  /-- `CP_L` (R239). -/
  | cpL (f : Rrr)
  /-- `CP_T` (R245). -/
  | cpT (f : Rrr)
  /-- `CP_G` (R247). -/
  | cpG (f : Rrr)
  /-- `CP_GCM` (R248). -/
  | cpGcm (f : Rrr)
  /-- `CP_STAT` (R251). -/
  | cpStat (f : Rrr)
  /-- `CP_CANCEL` (R252). -/
  | cpCancel (f : Rrr)
  /-- `BAR_INIT` (R255). -/
  | barInit (f : Rrr)
  /-- `BAR_ARRIVE` (R255). -/
  | barArrive (f : Rrr)
  /-- `BAR_EXPECT` (R255). -/
  | barExpect (f : Rrr)
  /-- `BAR_WAIT` (R256). -/
  | barWait (f : Rrr)
  /-- `BAR_TEST` (R255). -/
  | barTest (f : Rrr)
  /-- `BAR_INVAL` (R255). -/
  | barInval (f : Rrr)
  /-- `OBRES` (R282). -/
  | obres (f : Rrr)
  /-- `OBREL` (R283). -/
  | obrel (f : Rrr)
  /-- `MMA` (R294). -/
  | mma (f : Rrr)
  /-- `MCONV` (R295). -/
  | mconv (f : Rrr)
  /-- `MZERO` (R296). -/
  | mzero (f : Rrr)
  /-- `MLD` (R297). -/
  | mld (f : Rrr)
  /-- `MST` (R297). -/
  | mst (f : Rrr)
  /-- `MWAIT` (R298). -/
  | mwait (f : Rrr)
  /-- `MSTAT` (R299). -/
  | mstat (f : Rrr)
  /-- `CMODE` (R350). -/
  | cmode (f : Rrr)
  /-- `CBCAST` (R351). -/
  | cbcast (f : Rrr)
  /-- `CLD_ROW` (R352). -/
  | cldRow (f : Rrr)
  /-- `CST_ROW` (R352). -/
  | cstRow (f : Rrr)
  /-- `CMAC` (R353). -/
  | cmac (f : Rrr)
  /-- `CDOT` (R353). -/
  | cdot (f : Rrr)
  /-- `CRED` (R354). -/
  | cred (f : Rrr)
  /-- `CWR` (R352). -/
  | cwr (f : Rrr)
  /-- `CLUT` (R355). -/
  | clut (f : Rrr)
  /-- `CATTN` (R358). -/
  | cattn (f : Rrr)
  /-- `CTBL_WR` (R356). -/
  | ctblWr (f : Rrr)
  /-- `CTBL_SWAP` (R356). -/
  | ctblSwap (f : Rrr)
  /-- `CSYNC` (R359). -/
  | csync (f : Rrr)
  /-- `CSTAT` (R360). -/
  | cstat (f : Rrr)
  /-- `NODE_SPAWN` (R332). -/
  | nodeSpawn (f : Rrr)
  /-- `GRP` (R333). -/
  | grp (f : Rrr)
  /-- `SYSRD` (R334). -/
  | sysrd (f : Rrr)
  /-- `SYSWR` (R334). -/
  | syswr (f : Rrr)
  /-- `TRAPI` (R335). -/
  | trapi (f : Rrr)
  /-- `RTI` (R336). -/
  | rti (f : Rrr)
  /-- `MOV_16` (R33). -/
  | mov16 (f : H16)
  /-- `IADD_16` (R33). -/
  | iadd16 (f : H16)
  /-- `ISUB_16` (R33). -/
  | isub16 (f : H16)
  /-- `IMUL_16` (R33). -/
  | imul16 (f : H16)
  /-- `AND_16` (R33). -/
  | bitAnd16 (f : H16)
  /-- `OR_16` (R33). -/
  | bitOr16 (f : H16)
  /-- `XOR_16` (R33). -/
  | bitXor16 (f : H16)
  /-- `SHL_16` (R33). -/
  | shl16 (f : H16)
  /-- `SHR_U_16` (R33). -/
  | shrU16 (f : H16)
  /-- `SHR_S_16` (R33). -/
  | shrS16 (f : H16)
  /-- `IMIN_S_16` (R33). -/
  | iminS16 (f : H16)
  /-- `IMAX_S_16` (R33). -/
  | imaxS16 (f : H16)
  /-- `FADD_16` (R33). -/
  | fadd16 (f : H16)
  /-- `FSUB_16` (R33). -/
  | fsub16 (f : H16)
  /-- `FMUL_16` (R33). -/
  | fmul16 (f : H16)
  /-- `FMAX_16` (R33). -/
  | fmax16 (f : H16)
  /-- `UNASSIGNED_OPCODE` (R40). -/
  | unassignedOpcode (w : BitVec 32)
  /-- `CLASS_L_RESULT_LAND` (R65). -/
  | classLResultLand (st p : Nat) (lanes : BitVec 32) (ext : W128) (err : Byte)
  /-- `ISSUE_STARVATION` (R62). -/
  | issueStarvation (st : Nat)
  /-- `FAULT_DELIVERY` (R72). -/
  | faultDelivery (st : Nat)
  /-- `FAULT_QUEUE_WRITE` (R323). -/
  | faultQueueWrite (f : Nat)
  /-- `GENERAL_BLOCK_GRANT` (R102). -/
  | generalBlockGrant (core : Nat)
  /-- `SFU_QUEUE_ADMIT` (R139). -/
  | sfuQueueAdmit (core : Nat)
  /-- `MISS_BUFFER_GRANT` (R186). -/
  | missBufferGrant (core : Nat)
  /-- `ENGINE_QUEUE_ROOM` (R231). -/
  | engineQueueRoom (die : Nat)
  /-- `HOME_RECORD_GRANT` (R260). -/
  | homeRecordGrant (cx : Nat)
  /-- `ENGINE_HOLDER_FREE` (R280). -/
  | engineHolderFree (core : Nat)
  /-- `MATRIX_QUEUE_ROOM` (R289). -/
  | matrixQueueRoom (core : Nat)
  /-- `COMB_BUFFER_ROOM` (R343). -/
  | combBufferRoom (chan : Nat)
  /-- `WAGGLE_ENTRY_FREE` (R79). -/
  | waggleEntryFree (core : Nat)
  /-- `FENCE_WAIT_END` (R219). -/
  | fenceWaitEnd (st : Nat)
  /-- `APPLY_AT_HOME` (R195). -/
  | applyAtHome (w : Nat) (err : Byte)
  /-- `VIEW_UPDATE` (R218). -/
  | viewUpdate (w : Nat) (p : Path) (die : Nat)
  /-- `USED_HALVING` (R234). -/
  | usedHalving (die : Nat)
  /-- `PAGE_WALK` (R179). -/
  | pageWalk (die f : Nat)
  /-- `ENGINE_LEASE_GRANT` (R234). -/
  | engineLeaseGrant (die eng : Nat)
  /-- `LEASE_EXPIRY` (R235). -/
  | leaseExpiry (die eng : Nat)
  /-- `BEAT_LAND` (R229). -/
  | beatLand (die eng : Nat)
  /-- `GCM_COUNTER_CHECK` (R249). -/
  | gcmCounterCheck (die eng : Nat)
  /-- `GCM_TAG_VERIFY` (R250). -/
  | gcmTagVerify (die eng : Nat)
  /-- `CONTINUATION_ARRIVAL` (R261). -/
  | continuationArrival (fg : Nat)
  /-- `ARRIVAL_QUEUE_ACCEPT` (R261). -/
  | arrivalQueueAccept (u : Nat)
  /-- `HOME_RETURN` (R271). -/
  | homeReturn (fg : Nat)
  /-- `MATRIX_STEP` (R290). -/
  | matrixStep (core : Nat)
  /-- `MATRIX_COMMAND_END` (R289). -/
  | matrixCommandEnd (core : Nat)
  /-- `COMB_INSTANCE_START` (R338). -/
  | combInstanceStart (node idx : Nat)
  /-- `COMB_WAVE_START` (R341). -/
  | combWaveStart (chan : Nat)
  /-- `SUBMISSION_RING_READ` (R325). -/
  | submissionRingRead (f : Nat)
  /-- `WALKER_INTAKE_DRAIN` (R309). -/
  | walkerIntakeDrain (f : Nat)
  /-- `DISPATCH` (R309). -/
  | dispatchNode (die : Nat)
  /-- `WORKGROUP_ADMISSION` (R56). -/
  | workgroupAdmission (node core base : Nat)
  /-- `WORKGROUP_START` (R310). -/
  | workgroupStart (cx : Nat)
  /-- `WORKGROUP_COMPLETE` (R59). -/
  | workgroupComplete (cx : Nat)
  /-- `NODE_COMPLETE` (R305). -/
  | nodeComplete (node : Nat)
  /-- `PREEMPTTO_EXPIRY` (R327). -/
  | preempttoExpiry (cx : Nat)
  /-- `SAVE_AREA_WRITE` (R329). -/
  | saveAreaWrite (cx : Nat)
  /-- `CONTEXT_RESTORE` (R331). -/
  | contextRestore (cx core base : Nat)
  /-- `COMB_INSTANCE_RESTORE` (R363). -/
  | combInstanceRestore (inst : Nat)
  /-- `FQACK_RETRY` (R323). -/
  | fqackRetry (f idx : Nat)
  /-- `FQACK_SKIP` (R323). -/
  | fqackSkip (f idx : Nat)
  /-- `FQACK_KILL` (R323). -/
  | fqackKill (f idx : Nat)
  /-- `TLBINV_PAGE` (R187). -/
  | tlbinvPage (f : Nat) (va : Va)
  /-- `TLBINV_FUNCTION` (R187). -/
  | tlbinvFunction (f : Nat)
  /-- `TLBINV_WALKER_CACHE` (R187). -/
  | tlbinvWalkerCache (f : Nat)
  /-- `ATTRRESET` (R181). -/
  | attrReset (f : Nat) (val : W64)
  /-- `SYSREG_WRITE` (R334). -/
  | sysregWrite (f num : Nat) (val : W64)
  /-- `BANKLIM_WRITE` (R340). -/
  | banklimWrite (f stack : Nat) (val : W64)
  /-- `DOORBELL` (R390). -/
  | doorbell (f : Nat) (val : Word) (tbit : Bool)
  /-- `DISP_HALVING` (R309). -/
  | dispHalving
  /-- `GANG_WAIT_EXPIRY` (R314). -/
  | gangWaitExpiry (node : Nat)
  /-- `GANG_PRE_EXPIRY` (R314). -/
  | gangPreExpiry (node : Nat)
  /-- `GANG_UNPLACEABLE` (R314). -/
  | gangUnplaceable (node : Nat)
  /-- `LAUNCH_PACKET` (R317). -/
  | launchPacket (f entry : Nat) (sender : BitVec 20) (seq : Word) (arg : W64)
  /-- `CREATE` (R371). -/
  | sliceCreate
  /-- `ADDCH` (R371). -/
  | addch
  /-- `ADDCORE` (R371). -/
  | addcore
  /-- `REMCH` (R371). -/
  | remch
  /-- `REMCORE` (R371). -/
  | remcore
  /-- `MOVECH` (R373). -/
  | movech
  /-- `SETPARAM` (R371). -/
  | setparam
  /-- `DESTROY` (R371). -/
  | sliceDestroy
  /-- `SLICE_COMMAND_END` (R370). -/
  | sliceCommandEnd
  /-- `EPOCH_SWEEP` (R376). -/
  | epochSweep (chan : Nat)
  /-- `GRANULE_RETIRE` (R381). -/
  | granuleRetire (gran : Nat)
  /-- `CORE_UNCORRECTABLE_ERROR` (R379). -/
  | coreUncorrectableError (core : Nat) (passed : Bool)
  /-- `LINK_FAILURE` (R379). -/
  | linkFailure (link : Nat)
  /-- `MMIO_WRITE` (R390). -/
  | mmioWrite (f off : Nat) (val : W64) (tbit : Bool)
  /-- `MMIO_READ` (R390). -/
  | mmioRead (f off : Nat) (tbit : Bool)
  /-- `INTCAUSE_CLEAR` (R390). -/
  | intcauseClear (f : Nat) (val : Word) (tbit : Bool)
  /-- `ATS_TRANSLATION_COMPLETION` (R394). -/
  | atsTranslationCompletion (die f : Nat) (iova : BitVec 57) (res : AtsReply)
  /-- `PRI_PAGE_RESPONSE` (R395). -/
  | priPageResponse (die f : Nat) (iova : BitVec 57) (ok : Bool)
  /-- `PRI_TIMEOUT` (R395). -/
  | priTimeout (die f : Nat) (iova : BitVec 57)
  /-- `ATS_INVALIDATE_REQUEST` (R396). -/
  | atsInvalidateRequest (f : Nat) (iova : BitVec 57) (pages : Nat)
  /-- `ATS_INVALIDATE_COMPLETION` (R396). -/
  | atsInvalidateCompletion (tag : Nat)
  /-- `LOCK_INTERFACE_REQUEST` (R392). -/
  | lockInterfaceRequest (f : Nat)
  /-- `START_INTERFACE_REQUEST` (R392). -/
  | startInterfaceRequest (f : Nat)
  /-- `STOP_INTERFACE_REQUEST` (R392). -/
  | stopInterfaceRequest (f : Nat)
  /-- `IDE_KM` (R397). -/
  | ideKm (f : Nat) (key : BitVec 256)
  /-- `IDE_INTEGRITY_FAILURE` (R392). -/
  | ideIntegrityFailure (f : Nat)
  /-- `PF_FUNCTION_CONFIG_CHANGE` (R392). -/
  | pfFunctionConfigChange (f : Nat)
  /-- `GET_CRENI` (R399). -/
  | getCreni (f : Nat) (nonce : BitVec 256)
  /-- `STREAM_SET` (R401). -/
  | streamSet (f n : Nat) (key : BitVec 256) (sid : Word) (last : W64)
  /-- `STREAM_CLR` (R397). -/
  | streamClr (f n : Nat)
  /-- `QUIESCE` (R393). -/
  | quiesceFunction (f : Nat) (save : Bool)
  /-- `QUIESCE_COMPLETE` (R393). -/
  | quiesceComplete (f : Nat)
  /-- `RESUME` (R392). -/
  | resumeFunction (f : Nat)
  /-- `MIGKEY` (R408). -/
  | migkey (f : Nat) (key : BitVec 256) (peer : BitVec 20)
  /-- `DIRTY_READ` (R408). -/
  | dirtyRead (f first count : Nat)
  /-- `EXPORT_PAGE` (R408). -/
  | exportPage (f gran : Nat) (buf : W64)
  /-- `EXPORT_STATE` (R409). -/
  | exportState (f : Nat)
  /-- `IMPORT_PAGE` (R408). -/
  | importPage (f : Nat) (buf : W64) (counter : W64)
  /-- `IMPORT_STATE` (R409). -/
  | importState (f : Nat) (image : List Byte)
  /-- `PEER_REQUEST` (R403). -/
  | peerRequest (dev : BitVec 20) (pfunc sfunc : Nat) (off : BitVec 40) (op : PeerOp)
  /-- `HOLD` (R405). -/
  | vcHold (port vc : Nat)
  /-- `RELEASE` (R405). -/
  | vcRelease (port vc : Nat)
  /-- `BUFFER_RESERVATION_GRANT` (R405). -/
  | bufferReservationGrant (port : Nat)
  /-- `LINK_RETRY` (R406). -/
  | linkRetry (port : Nat)
  /-- `COLLECTIVE_ACK` (R407). -/
  | collectiveAck (node rank : Nat)
  /-- `POWER_UP` (R411). -/
  | powerUp
  /-- `PERST` (R411). -/
  | perst
  /-- `PCIE_HOT_RESET` (R411). -/
  | pcieHotReset
  /-- `FUNCTION_LEVEL_RESET` (R411). -/
  | functionLevelReset (f : Nat)
  /-- `RESET_ENGINE_COPY` (R414). -/
  | resetEngineCopy (target : Nat)
  /-- `RESET_ENGINE_GATHER` (R414). -/
  | resetEngineGather (target : Nat)
  /-- `RESET_ENGINE_MATRIX` (R414). -/
  | resetEngineMatrix (target : Nat)
  /-- `RESET_ENGINE_COMB` (R414). -/
  | resetEngineComb (target : Nat)
  /-- `RESET_ENGINE_LEAD` (R414). -/
  | resetEngineLead (target : Nat)
  /-- `RESET_ENGINE_COLLECTIVE` (R414). -/
  | resetEngineCollective (target : Nat)
  /-- `RESET_CORE` (R414). -/
  | resetCore (target : Nat) (passed : Bool)
  /-- `RESET_STACK` (R414). -/
  | resetStack (target : Nat)
  /-- `RESET_DIE` (R414). -/
  | resetDie (target : Nat)
  /-- `RESET_FUNCTION` (R414). -/
  | resetFunction (target : Nat)
  /-- `RESET_SLICE` (R414). -/
  | resetSlice (target : Nat)
  /-- `RESET_MODULE_WARM` (R414). -/
  | resetModuleWarm
  /-- `MODULE_COLD_RESET` (R414). -/
  | moduleColdReset
  /-- `RESET_COMPLETE` (R412). -/
  | resetComplete
  /-- `START_READY` (R418). -/
  | startReady
  /-- `START_FAILURE` (R418). -/
  | startFailure (reason : Byte)
  /-- `START_WATCHDOG_EXPIRY` (R418). -/
  | startWatchdogExpiry
  /-- `STAGE_BEGIN` (R416). -/
  | stageBegin
  /-- `FIRMWARE_DATA_TRANSFER` (R416). -/
  | firmwareDataTransfer (bytes : List Byte)
  /-- `STAGE_VERIFY` (R416). -/
  | stageVerify (sigOk : Bool)
  /-- `ACTIVATE` (R417). -/
  | fwActivate
  /-- `ACTIVATION_SELF_CHECK` (R417). -/
  | activationSelfCheck (passed : Bool)
  /-- `STAGE_ABORT` (R416). -/
  | stageAbort
  /-- `SYNC` (R420). -/
  | evonosSync
  /-- `TELEMETRY_READ` (R421). -/
  | telemetryRead (schema : Nat)
  /-- `TELEMETRY_REFRESH` (R421). -/
  | telemetryRefresh (schema : Nat) (record : List W64)
  /-- `PWRCAP_WRITE` (R422). -/
  | pwrcapWrite (watts : Nat)
  /-- `THROTTLE_STAGE_RAISE` (R422). -/
  | throttleStageRaise (average : Nat)
  /-- `THROTTLE_STAGE_LOWER` (R422). -/
  | throttleStageLower (average : Nat)
  /-- `GOVERNOR_STEP` (R425). -/
  | governorStep (core : Nat) (up : Bool)
  /-- `THERMAL_WARNING` (R426). -/
  | thermalWarning (die temp : Nat)
  /-- `THERMAL_HOLD` (R426). -/
  | thermalHold (die temp : Nat)
  /-- `THERMAL_TRIP` (R426). -/
  | thermalTrip (die temp : Nat)
  /-- `THERMAL_TRIP_RELEASE` (R426). -/
  | thermalTripRelease (temps : List Nat)
  /-- `COOLANT_FLOW_LOW` (R427). -/
  | coolantFlowLow (flow : Nat)
  /-- `COMPLETION_TIMEOUT` (R396). -/
  | completionTimeout (die f : Nat) (iova : BitVec 57) (eng : Option Nat)
  /-- `KEY_EXCHANGE` (R397). -/
  | keyExchange (f : Option Nat) (owner : Bool) (transcript : BitVec 512)
  /-- `COLLECTIVE_CONTRIBUTION_ARRIVAL` (R407). -/
  | collectiveContributionArrival (node rank : Nat) (data : List Word)
  /-- `DIE_TLB_UNCORRECTABLE_ERROR` (R379). -/
  | dieTlbUncorrectableError (die : Nat)
  /-- `L2_LINE_UNCORRECTABLE_ERROR` (R379). -/
  | l2LineUncorrectableError (die f : Nat) (line : Nat)
  /-- `HUB_DIE_ERROR` (R379). -/
  | hubDieError
  deriving DecidableEq, Repr

end Sys2Proof
end

