-- ==== Sys2Proof/Machine/Encoding.lean ====
section
/-! DEFINITION. The encoding tables of the OZ9640 (R18 to R43): the fields of a 32-bit word, the
opcode map of R37 with what each field names, and the context-free checks of step 2 of R40. -/
namespace Sys2Proof.Machine

/-- What a register field names (R22 to R25, and the home chapters). `src` is one 32-bit source and the
only kind that may be a window name; `reg` is any other single register; the kinds after `no` depend on
another field of the same instruction. -/
inductive Opr where
  | no | src | reg | pair | quad
  | bySize | casSize | redSize   -- the size code of R28 chooses the width (R205, R206)
  | carried                      -- vFirst and the registers after it (R31)
  | trailReg                     -- a register, or 56 for none (R85)
  | voteDst | voteMask           -- R87
  | tileA | tileB                -- SRAM operand or register tile (R294)
  | spillD | spillA | statD | statA  -- d of the read forms, a of the write form (R162)
  | grpRank                      -- b of `grp.wg` (R333)
  deriving DecidableEq, Repr

/-- One row of the opcode map (R37): `ctx` has bit 0 L, 1 D, 2 S, 3 F; `mask` and `val` say which bits
the encoding fixes (opcode, res0 bits, a required S or guard); `long` is latency class L. -/
structure OpRow where
  op : Nat
  mask : Nat
  val : Nat
  ctx : Nat
  long : Bool
  guarded : Bool
  kd : Opr
  ka : Opr
  kb : Opr
  deriving DecidableEq, Repr

/-- Rows 0 to 23 of the opcode map. -/
def opRows0 : List OpRow := [
  ⟨0x00, 0x0FC003FD, 0x00000001, 15, false, true, .reg, .src, .no⟩,
  ⟨0x01, 0x000003FD, 0x00000005, 15, false, true, .reg, .src, .src⟩,
  ⟨0x02, 0x000003FD, 0x00000009, 15, false, true, .reg, .src, .src⟩,
  ⟨0x03, 0x000003FD, 0x0000000D, 15, false, true, .reg, .src, .src⟩,
  ⟨0x04, 0x000003FD, 0x00000011, 15, false, true, .reg, .src, .src⟩,
  ⟨0x05, 0x000003FD, 0x00000015, 15, false, true, .reg, .src, .src⟩,
  ⟨0x06, 0x000003FD, 0x00000019, 15, false, true, .reg, .src, .src⟩,
  ⟨0x07, 0x000003FD, 0x0000001D, 15, false, true, .pair, .pair, .pair⟩,
  ⟨0x08, 0x000003FD, 0x00000021, 15, false, true, .pair, .pair, .pair⟩,
  ⟨0x09, 0x000003FD, 0x00000025, 15, false, true, .pair, .pair, .pair⟩,
  ⟨0x0A, 0x000003FD, 0x00000029, 15, false, true, .reg, .src, .src⟩,
  ⟨0x0B, 0x000003FD, 0x0000002D, 15, false, true, .reg, .src, .src⟩,
  ⟨0x0C, 0x000003FD, 0x00000031, 15, false, true, .reg, .src, .src⟩,
  ⟨0x0D, 0x000003FD, 0x00000035, 15, false, true, .reg, .src, .src⟩,
  ⟨0x0E, 0x000003FD, 0x00000039, 15, false, true, .reg, .src, .src⟩,
  ⟨0x0F, 0x000003FD, 0x0000003D, 15, false, true, .reg, .src, .src⟩,
  ⟨0x10, 0x000003FD, 0x00000041, 15, false, true, .reg, .src, .src⟩,
  ⟨0x11, 0x000003FD, 0x00000045, 15, false, true, .reg, .src, .src⟩,
  ⟨0x12, 0x000003FD, 0x00000049, 15, false, true, .reg, .src, .src⟩,
  ⟨0x13, 0x000003FD, 0x0000004D, 15, false, true, .reg, .src, .src⟩,
  ⟨0x14, 0x0FC003FD, 0x00000051, 15, false, true, .reg, .src, .no⟩,
  ⟨0x15, 0x0FC003FD, 0x00000055, 15, false, true, .reg, .src, .no⟩,
  ⟨0x16, 0x000003FD, 0x00000059, 15, false, true, .reg, .src, .src⟩,
  ⟨0x17, 0x000003FD, 0x0000005D, 15, false, true, .reg, .src, .src⟩]

/-- Rows 24 to 47 of the opcode map. -/
def opRows1 : List OpRow := [
  ⟨0x18, 0x0000E3FD, 0x00000061, 15, false, false, .no, .src, .src⟩,
  ⟨0x19, 0x0000E3FD, 0x00000065, 15, false, false, .no, .pair, .pair⟩,
  ⟨0x1A, 0x000003FD, 0x00000069, 15, false, false, .reg, .src, .src⟩,
  ⟨0x1B, 0x000003FD, 0x0000006D, 15, false, false, .reg, .no, .no⟩,
  ⟨0x1C, 0x000003FD, 0x00000071, 15, false, false, .reg, .no, .no⟩,
  ⟨0x1D, 0x000003FD, 0x00000075, 15, false, false, .reg, .src, .no⟩,
  ⟨0x1E, 0x000003FD, 0x00000079, 15, false, false, .reg, .src, .no⟩,
  ⟨0x1F, 0x000003FD, 0x0000007D, 15, false, false, .reg, .src, .no⟩,
  ⟨0x20, 0xF80003FD, 0x00000081, 15, false, false, .reg, .src, .no⟩,
  ⟨0x21, 0xF80003FD, 0x00000085, 15, false, false, .reg, .src, .no⟩,
  ⟨0x22, 0xF80003FD, 0x00000089, 15, false, false, .reg, .src, .no⟩,
  ⟨0x23, 0x000003FD, 0x0000008D, 15, false, false, .pair, .pair, .src⟩,
  ⟨0x24, 0x0FFF03FD, 0x00000091, 15, false, false, .reg, .no, .no⟩,
  ⟨0x25, 0x0E38E3FD, 0x00000095, 15, false, false, .no, .no, .no⟩,
  ⟨0x26, 0x0FFF03FD, 0x00000099, 15, false, true, .reg, .no, .no⟩,
  ⟨0x27, 0x0FC0FFFD, 0x0000009D, 15, false, true, .no, .src, .no⟩,
  ⟨0x28, 0x0FC003FD, 0x000000A1, 1, false, true, .reg, .reg, .no⟩,
  ⟨0x29, 0xFFC0E3FD, 0x000000A5, 1, false, false, .no, .reg, .no⟩,
  ⟨0x2A, 0x800003FD, 0x000000A9, 1, false, false, .reg, .reg, .src⟩,
  ⟨0x2B, 0x000003FD, 0x000000AD, 1, false, false, .reg, .reg, .src⟩,
  ⟨0x2C, 0x000003FD, 0x000000B1, 1, false, false, .reg, .reg, .src⟩,
  ⟨0x2D, 0x800003FD, 0x000000B5, 1, false, false, .reg, .reg, .src⟩,
  ⟨0x2E, 0x000003FD, 0x000000B9, 1, false, true, .reg, .reg, .src⟩,
  ⟨0x2F, 0xEFC003FD, 0x000000BD, 1, false, false, .reg, .reg, .no⟩]

/-- Rows 48 to 71 of the opcode map. -/
def opRows2 : List OpRow := [
  ⟨0x30, 0x800003FD, 0x000000C1, 1, false, false, .pair, .reg, .src⟩,
  ⟨0x40, 0x000003FD, 0x00000101, 13, false, true, .reg, .src, .src⟩,
  ⟨0x41, 0x000003FD, 0x00000105, 13, false, true, .reg, .src, .src⟩,
  ⟨0x42, 0x000003FD, 0x00000109, 13, false, true, .reg, .src, .src⟩,
  ⟨0x43, 0x000003FD, 0x0000010D, 13, false, true, .reg, .src, .src⟩,
  ⟨0x44, 0x000003FD, 0x00000111, 13, false, false, .reg, .src, .src⟩,
  ⟨0x45, 0x000003FD, 0x00000115, 13, false, true, .reg, .src, .src⟩,
  ⟨0x46, 0x000003FD, 0x00000119, 13, false, true, .reg, .src, .src⟩,
  ⟨0x47, 0x0FC003FD, 0x0000011D, 13, false, true, .reg, .src, .no⟩,
  ⟨0x48, 0x0FC003FD, 0x00000121, 13, false, true, .reg, .src, .no⟩,
  ⟨0x49, 0x0000E3FD, 0x00000125, 13, false, false, .no, .src, .src⟩,
  ⟨0x4A, 0x0FC003FD, 0x00000129, 1, true, true, .reg, .src, .no⟩,
  ⟨0x4B, 0x0FC003FD, 0x0000012D, 1, true, true, .reg, .src, .no⟩,
  ⟨0x4C, 0x0FC003FD, 0x00000131, 1, true, true, .reg, .src, .no⟩,
  ⟨0x4D, 0x0FC003FD, 0x00000135, 1, true, true, .reg, .src, .no⟩,
  ⟨0x4E, 0x0FC003FD, 0x00000139, 1, true, true, .reg, .src, .no⟩,
  ⟨0x4F, 0x0FC003FD, 0x0000013D, 1, true, true, .reg, .src, .no⟩,
  ⟨0x50, 0x0FC003FD, 0x00000141, 1, true, true, .reg, .src, .no⟩,
  ⟨0x51, 0x800003FD, 0x00000145, 1, false, false, .reg, .src, .src⟩,
  ⟨0x52, 0xB00003FD, 0x00000149, 1, false, false, .reg, .src, .src⟩,
  ⟨0x53, 0x2FC003FD, 0x0000014D, 13, false, false, .reg, .src, .no⟩,
  ⟨0x54, 0x2FC003FD, 0x00000151, 13, false, false, .reg, .src, .no⟩,
  ⟨0x55, 0x0FC003FD, 0x00000155, 1, false, false, .reg, .src, .no⟩,
  ⟨0x56, 0xCFC003FD, 0x00000159, 1, false, false, .reg, .src, .no⟩]

/-- Rows 72 to 95 of the opcode map. -/
def opRows3 : List OpRow := [
  ⟨0x57, 0x8FC003FD, 0x0000015D, 1, false, false, .reg, .src, .no⟩,
  ⟨0x58, 0x8FC003FD, 0x00000161, 1, false, false, .reg, .src, .no⟩,
  ⟨0x59, 0x200003FD, 0x00000165, 1, false, false, .reg, .src, .src⟩,
  ⟨0x5A, 0x200003FD, 0x00000169, 1, false, false, .reg, .pair, .pair⟩,
  ⟨0x5B, 0xE00003FD, 0x0000016D, 1, false, false, .pair, .src, .src⟩,
  ⟨0x5C, 0xE00003FD, 0x00000171, 1, false, false, .reg, .src, .src⟩,
  ⟨0x70, 0x0FFFFFFD, 0x000001C1, 1, false, false, .no, .no, .no⟩,
  ⟨0x71, 0xFFFFFFFD, 0x000001C5, 1, false, false, .no, .no, .no⟩,
  ⟨0x72, 0xC00003FD, 0x000001C9, 1, false, false, .reg, .src, .src⟩,
  ⟨0x73, 0xC00003FD, 0x000001CD, 1, false, false, .reg, .src, .src⟩,
  ⟨0x74, 0xDFC003FD, 0x000001D1, 1, false, false, .reg, .src, .no⟩,
  ⟨0x75, 0xF00003FD, 0x000001D5, 1, false, false, .reg, .src, .src⟩,
  ⟨0x76, 0xF00003FD, 0x000001D9, 1, false, false, .reg, .src, .src⟩,
  ⟨0x77, 0xF00003FD, 0x000001DD, 1, false, false, .reg, .src, .src⟩,
  ⟨0x78, 0xF00003FD, 0x000001E1, 1, false, false, .reg, .src, .src⟩,
  ⟨0x79, 0xD00003FD, 0x000001E5, 1, false, false, .reg, .src, .src⟩,
  ⟨0x7A, 0xCFC003FD, 0x000001E9, 1, false, false, .spillD, .spillA, .no⟩,
  ⟨0x7B, 0x0000E3FD, 0x000001ED, 1, false, false, .no, .src, .src⟩,
  ⟨0x7C, 0xF00003FD, 0x700001F1, 1, true, true, .reg, .pair, .no⟩,
  ⟨0x7D, 0xF00003FD, 0x700001F5, 1, true, true, .reg, .pair, .no⟩,
  ⟨0x7E, 0xEFC003FD, 0x000001F9, 1, false, false, .statD, .statA, .no⟩,
  ⟨0x80, 0x000003FD, 0x00000201, 15, true, true, .reg, .pair, .no⟩,
  ⟨0x81, 0x000003FD, 0x00000205, 15, true, true, .reg, .pair, .no⟩,
  ⟨0x82, 0x000003FD, 0x00000209, 15, true, true, .reg, .pair, .no⟩]

/-- Rows 96 to 119 of the opcode map. -/
def opRows4 : List OpRow := [
  ⟨0x83, 0x000003FD, 0x0000020D, 15, true, true, .reg, .pair, .no⟩,
  ⟨0x84, 0x000003FD, 0x00000211, 15, true, true, .reg, .pair, .no⟩,
  ⟨0x85, 0x000003FD, 0x00000215, 15, true, true, .pair, .pair, .no⟩,
  ⟨0x86, 0x000003FD, 0x00000219, 15, true, true, .quad, .pair, .no⟩,
  ⟨0x87, 0x000003FD, 0x0000021D, 15, true, true, .src, .pair, .no⟩,
  ⟨0x88, 0x000003FD, 0x00000221, 15, true, true, .src, .pair, .no⟩,
  ⟨0x89, 0x000003FD, 0x00000225, 15, true, true, .src, .pair, .no⟩,
  ⟨0x8A, 0x000003FD, 0x00000229, 15, true, true, .pair, .pair, .no⟩,
  ⟨0x8B, 0x000003FD, 0x0000022D, 15, true, true, .quad, .pair, .no⟩,
  ⟨0x8C, 0x000003FD, 0x00000231, 15, true, true, .reg, .pair, .no⟩,
  ⟨0x8D, 0x000003FD, 0x00000235, 15, true, true, .pair, .pair, .no⟩,
  ⟨0x8E, 0x000003FD, 0x00000239, 15, true, true, .src, .pair, .no⟩,
  ⟨0x8F, 0x000003FD, 0x0000023D, 15, true, true, .pair, .pair, .no⟩,
  ⟨0x90, 0x0E0003FD, 0x00000241, 15, true, true, .bySize, .pair, .no⟩,
  ⟨0x91, 0x0E0003FD, 0x00000245, 15, true, true, .bySize, .pair, .no⟩,
  ⟨0x92, 0x0E0003FD, 0x00000249, 15, true, true, .bySize, .pair, .no⟩,
  ⟨0x93, 0x0E0003FD, 0x0000024D, 15, true, true, .bySize, .pair, .no⟩,
  ⟨0x94, 0x0E0003FD, 0x00000251, 15, true, true, .bySize, .pair, .no⟩,
  ⟨0x95, 0x0E0003FD, 0x00000255, 15, true, true, .bySize, .pair, .no⟩,
  ⟨0x96, 0x0E0003FD, 0x00000259, 15, true, true, .bySize, .pair, .no⟩,
  ⟨0x97, 0x0E0003FD, 0x0000025D, 15, true, true, .casSize, .pair, .no⟩,
  ⟨0x98, 0x0E0003FD, 0x00000261, 15, true, true, .bySize, .pair, .no⟩,
  ⟨0x99, 0x0E0003FD, 0x00000265, 15, true, true, .bySize, .pair, .no⟩,
  ⟨0x9A, 0x0E0003FD, 0x00000269, 15, true, true, .redSize, .pair, .no⟩]

/-- Rows 120 to 143 of the opcode map. -/
def opRows5 : List OpRow := [
  ⟨0x9B, 0x0E0003FD, 0x0000026D, 15, true, true, .redSize, .pair, .no⟩,
  ⟨0x9C, 0x000003FD, 0x00000271, 7, true, true, .no, .pair, .no⟩,
  ⟨0x9D, 0x003FFFFD, 0x00000275, 15, false, true, .no, .no, .no⟩,
  ⟨0x9E, 0xFFF8E3FD, 0x00000279, 7, false, false, .no, .no, .no⟩,
  ⟨0xA0, 0x0E0003FD, 0x00000281, 9, true, true, .carried, .pair, .no⟩,
  ⟨0xA1, 0x000003FD, 0x00000285, 9, true, true, .carried, .pair, .no⟩,
  ⟨0xA2, 0xFFFFFFFD, 0x00000289, 8, false, false, .no, .no, .no⟩,
  ⟨0xA3, 0x0FFF03FD, 0x0000028D, 7, false, false, .reg, .no, .no⟩,
  ⟨0xA8, 0x000003FD, 0x000002A1, 15, false, true, .no, .no, .no⟩,
  ⟨0xA9, 0x000003FD, 0x000002A5, 15, false, false, .no, .no, .no⟩,
  ⟨0xAA, 0x000003FD, 0x000002A9, 15, false, true, .no, .no, .no⟩,
  ⟨0xAB, 0x000003FD, 0x000002AD, 15, false, false, .no, .no, .no⟩,
  ⟨0xAC, 0x0FC0FFFD, 0x000002B1, 15, false, true, .no, .pair, .no⟩,
  ⟨0xAD, 0x0FC0FFFD, 0x000002B5, 15, false, true, .no, .pair, .no⟩,
  ⟨0xAE, 0x0FC0FFFD, 0x000002B9, 15, false, true, .no, .pair, .no⟩,
  ⟨0xAF, 0x0FFFFFFD, 0x000002BD, 7, false, true, .no, .no, .no⟩,
  ⟨0xB0, 0xFFFFC3FD, 0x000002C1, 1, false, false, .no, .no, .no⟩,
  ⟨0xB1, 0xFFFFC3FD, 0x000002C5, 1, false, false, .no, .no, .no⟩,
  ⟨0xB2, 0xEFFFC3FD, 0x000002C9, 1, false, false, .no, .no, .no⟩,
  ⟨0xB3, 0xF00003FF, 0x000002CF, 1, false, false, .trailReg, .trailReg, .trailReg⟩,
  ⟨0xB4, 0xFFFFFFFD, 0x000002D1, 15, false, false, .no, .no, .no⟩,
  ⟨0xB5, 0x003803FD, 0x000002D5, 1, false, false, .voteDst, .no, .voteMask⟩,
  ⟨0xB6, 0xFFFF03FD, 0x000002D9, 2, false, false, .pair, .no, .no⟩,
  ⟨0xB7, 0xFFFF03FD, 0x000002DD, 1, true, false, .pair, .no, .no⟩]

/-- Rows 144 to 167 of the opcode map. -/
def opRows6 : List OpRow := [
  ⟨0xB8, 0xFFC003FD, 0x000002E1, 15, false, false, .no, .no, .no⟩,
  ⟨0xC0, 0x600003FD, 0x00000301, 3, false, false, .pair, .pair, .src⟩,
  ⟨0xC1, 0x4FC003FD, 0x00000305, 3, false, false, .pair, .src, .no⟩,
  ⟨0xC2, 0x4FC003FD, 0x00000309, 3, false, false, .pair, .src, .no⟩,
  ⟨0xC3, 0x4FC003FD, 0x0000030D, 3, false, false, .pair, .src, .no⟩,
  ⟨0xC4, 0xFFC003FD, 0x00000311, 3, false, false, .reg, .src, .no⟩,
  ⟨0xC5, 0xFFFF03FD, 0x00000315, 3, false, false, .src, .no, .no⟩,
  ⟨0xC6, 0x800003FD, 0x00000319, 3, false, false, .no, .src, .src⟩,
  ⟨0xC7, 0x8FFF03FD, 0x0000031D, 3, false, false, .no, .no, .no⟩,
  ⟨0xC8, 0x8FC003FD, 0x00000321, 3, false, false, .no, .src, .no⟩,
  ⟨0xC9, 0x0FC003FF, 0x00000327, 3, false, false, .no, .src, .no⟩,
  ⟨0xCA, 0x803803FD, 0x00000329, 3, false, false, .no, .no, .src⟩,
  ⟨0xCB, 0x8FFF03FD, 0x0000032D, 3, false, false, .no, .no, .no⟩,
  ⟨0xD0, 0x000003FD, 0x00000341, 3, false, false, .reg, .src, .src⟩,
  ⟨0xD1, 0x0FFFFFFD, 0x00000345, 3, false, false, .no, .no, .no⟩,
  ⟨0xD2, 0x0000C3FD, 0x00000349, 3, false, false, .no, .tileA, .tileB⟩,
  ⟨0xD3, 0xF000C3FD, 0x0000034D, 3, false, false, .no, .quad, .quad⟩,
  ⟨0xD4, 0xFFFF83FD, 0x00000351, 3, false, false, .no, .no, .no⟩,
  ⟨0xD5, 0x800083FD, 0x00000355, 3, false, false, .no, .pair, .src⟩,
  ⟨0xD6, 0x800083FD, 0x00000359, 3, false, false, .no, .pair, .src⟩,
  ⟨0xD7, 0xFFFFFFFF, 0x0000035F, 3, false, false, .no, .no, .no⟩,
  ⟨0xD8, 0xFFFF03FD, 0x00000361, 3, false, false, .reg, .no, .no⟩,
  ⟨0xE0, 0xEFC0FFFD, 0x00000381, 4, false, false, .no, .src, .no⟩,
  ⟨0xE1, 0xF000C3FD, 0x00000385, 4, false, false, .no, .pair, .src⟩]

/-- Rows 168 to 185 of the opcode map. -/
def opRows7 : List OpRow := [
  ⟨0xE2, 0xFFC0C3FD, 0x00000389, 4, false, false, .no, .src, .no⟩,
  ⟨0xE3, 0xFFC0C3FD, 0x0000038D, 4, false, false, .no, .src, .no⟩,
  ⟨0xE4, 0x8C00F3FD, 0x00000391, 4, false, false, .no, .src, .no⟩,
  ⟨0xE5, 0x8C00F3FD, 0x00000395, 4, false, false, .no, .src, .no⟩,
  ⟨0xE6, 0xEFFCF3FD, 0x00000399, 4, false, false, .no, .no, .no⟩,
  ⟨0xE7, 0xFFC0F3FD, 0x0000039D, 4, false, false, .no, .src, .no⟩,
  ⟨0xE8, 0xCFF0C3FD, 0x000003A1, 4, false, false, .no, .no, .no⟩,
  ⟨0xE9, 0x0000C3FD, 0x000003A5, 4, false, false, .no, .src, .pair⟩,
  ⟨0xEA, 0xFFC0FFFD, 0x000003A9, 4, false, false, .no, .pair, .no⟩,
  ⟨0xEB, 0xFFFFFFFD, 0x000003AD, 4, false, false, .no, .no, .no⟩,
  ⟨0xEC, 0xFFFFFFFD, 0x000003B1, 4, false, false, .no, .no, .no⟩,
  ⟨0xED, 0xFFFF03FD, 0x000003B5, 4, false, false, .reg, .no, .no⟩,
  ⟨0xF0, 0xF00003FD, 0x000003C1, 2, false, false, .reg, .pair, .src⟩,
  ⟨0xF1, 0x003C03FD, 0x000003C5, 3, false, false, .reg, .no, .grpRank⟩,
  ⟨0xF2, 0xF00003FD, 0x000003C9, 6, false, false, .pair, .no, .no⟩,
  ⟨0xF3, 0xF00003FD, 0x000003CD, 6, false, false, .pair, .no, .no⟩,
  ⟨0xF4, 0xFFC003FD, 0x000003D1, 15, false, false, .no, .no, .no⟩,
  ⟨0xF5, 0xFFFFFFFD, 0x000003D5, 7, false, false, .no, .no, .no⟩]

/-- The opcode map. -/
def opRows : List OpRow :=
  opRows0 ++ opRows1 ++ opRows2 ++ opRows3 ++ opRows4 ++ opRows5 ++ opRows6 ++ opRows7

/-- The row of an opcode; none when it is unassigned (R37). -/
def opRow (op : Nat) : Option OpRow := opRows.find? (·.op == op)

/-- The major opcode of a 32-bit word, bits [9:2] (R21). -/
def opOf (w : Nat) : Nat := w / 4 % 256

/-- The fields of R21 read from a word. -/
def rrrOfWord (w : Nat) : Rrr :=
  ⟨BitVec.ofNat 1 (w / 2), BitVec.ofNat 6 (w / 1024), BitVec.ofNat 6 (w / 65536),
   BitVec.ofNat 6 (w / 4194304), BitVec.ofNat 4 (w / 268435456)⟩
def rriOfWord (w : Nat) : Rri :=
  ⟨BitVec.ofNat 1 (w / 2), BitVec.ofNat 6 (w / 1024), BitVec.ofNat 6 (w / 65536), BitVec.ofNat 10 (w / 4194304)⟩
def ri16OfWord (w : Nat) : Ri16 :=
  ⟨BitVec.ofNat 1 (w / 2), BitVec.ofNat 6 (w / 1024), BitVec.ofNat 16 (w / 65536)⟩
def brOfWord (w : Nat) : Br :=
  ⟨BitVec.ofNat 1 (w / 2), BitVec.ofNat 18 (w / 1024), BitVec.ofNat 4 (w / 268435456)⟩
def brlOfWord (w : Nat) : Brl := ⟨BitVec.ofNat 1 (w / 2), BitVec.ofNat 22 (w / 1024)⟩
/-- The fields of R32 read from a halfword. -/
def h16OfWord (w : Nat) : H16 :=
  ⟨BitVec.ofNat 1 (w / 2), BitVec.ofNat 5 (w / 64), BitVec.ofNat 5 (w / 2048)⟩

/-- The word of opcode `op` with the given fields (R21). -/
def rrrWord (op : Nat) (f : Rrr) : Nat :=
  1 + 2 * f.s.toNat + 4 * op + 1024 * f.d.toNat + 65536 * f.a.toNat + 4194304 * f.b.toNat + 268435456 * f.x.toNat
def rriWord (op : Nat) (f : Rri) : Nat :=
  1 + 2 * f.s.toNat + 4 * op + 1024 * f.d.toNat + 65536 * f.a.toNat + 4194304 * f.imm.toNat
def ri16Word (op : Nat) (f : Ri16) : Nat :=
  1 + 2 * f.s.toNat + 4 * op + 1024 * f.d.toNat + 65536 * f.imm.toNat
def brWord (op : Nat) (f : Br) : Nat :=
  1 + 2 * f.s.toNat + 4 * op + 1024 * f.off.toNat + 268435456 * f.x.toNat
def brlWord (op : Nat) (f : Brl) : Nat := 1 + 2 * f.s.toNat + 4 * op + 1024 * f.off.toNat
/-- The halfword of op4 with the given fields (R32). -/
def h16Word (op4 : Nat) (f : H16) : Nat :=
  2 * f.s.toNat + 4 * op4 + 64 * f.d.toNat + 2048 * f.b.toNat

/-- The 32-bit RRR fields of a 16-bit form (R33): a = d, b 24 to 31 become 56 to 63, guard 7. -/
def h16Wide (f : H16) : Rrr :=
  ⟨f.s, zext 6 f.d, zext 6 f.d, if f.b.toNat < 24 then zext 6 f.b else zext 6 f.b + 32#6, 7#4⟩
/-- The 32-bit `mov` of a 16-bit `mov` (R33): its source goes to the a field and b is 0. -/
def h16WideMov (f : H16) : Rrr :=
  ⟨f.s, zext 6 f.d, if f.b.toNat < 24 then zext 6 f.b else zext 6 f.b + 32#6, 0#6, 7#4⟩

/-- No window name in a field that is not a single 32-bit source (R22); ranges of R85. -/
def Opr.windowOk (k : Opr) (f : Rrr) (v : BitVec 6) : Bool :=
  match k with
  | .no | .src => true
  | .trailReg => v.toNat ≤ 56
  | .voteDst => f.x.toNat % 8 < 3 || v.toNat < 56
  | .voteMask => true
  | .redSize => f.b.toNat == 2 || v.toNat < 56
  | .spillA | .statA => true
  | .grpRank => true
  | _ => v.toNat < 56

/-- The field values R22 to R31, R38, R39 and the home chapters allow, beyond the fixed bits. -/
def fieldRules (op : Nat) (f : Rrr) : Bool :=
  let d := f.d.toNat; let a := f.a.toNat; let b := f.b.toNat; let x := f.x.toNat
  match op with
  | 0x18 | 0x19 | 0x7B => decide (x ≤ 9) && d != 7            -- integer condition, predicate destination
  | 0x49 => decide (x ≤ 7) && d != 7
  | 0x1A => x != 15
  | 0x23 => (x != 0 && x != 3) || b == 0                        -- R208
  | 0x24 => decide (x ≤ 8)
  | 0x25 => d != 7 && decide (x ≤ 7) && (decide (x < 4) || b == 0) && (decide (x < 6) || a == 0)   -- R113
  | 0x29 => d != 7
  | 0x70 => decide (1 ≤ x) && decide (x ≤ 5)
  | 0x7A => x != 3 && (if x == 2 then d == 0 else a == 0)       -- R162, R168
  | 0x7E => if x == 1 then d == 0 else a == 0
  | 0x8C | 0x8D | 0x8E | 0x8F | 0x9D => b != 0                  -- observer mask (R29)
  | 0x90 | 0x91 | 0x92 | 0x93 | 0x94 | 0x95 | 0x96 | 0x97 | 0x9A => b == 2 || b == 3
  | 0x98 | 0x99 | 0x9B => b == 2
  | 0x9C => decide (d ≤ 4)
  | 0x9E => decide (d ≤ 5) && decide (a ≤ 5) && d != a
  | 0xA0 => decide (d + b % 8 ≤ 55)
  | 0xA1 => decide (d + b % 8 ≤ 55) && b / 8 != 7
  | 0xA3 => decide (x ≤ 7)
  | 0xB3 => decide (d < 56)
  | 0xB5 => decide (x % 8 ≤ 5) && (if x % 8 < 3 then decide (d < 7) else true) && (decide (8 ≤ x) || b == 0)
  | 0xCA => a != 7
  | 0xD2 => x % 4 != 0 || x / 4 == 0                            -- format res0 when no register tile (R294)
  | 0xD4 => d / 4 % 2 == 1 || d / 8 == 0                        -- T res0 without SUB (R293)
  | 0xD5 | 0xD6 => decide (x % 8 ≤ 4) && (d / 4 % 2 == 1 || d / 8 == 0)
  | 0xE4 | 0xE5 => !(x % 4 == 3)                                -- `.i8` with T = 1 (R348)
  | 0xE8 => x % 4 != 3
  | 0xE9 => decide (x / 4 ≤ 2) && decide (d + 2 ^ (x / 4) ≤ 15)  -- R357
  | 0xF1 => decide (x ≤ 6) && (x == 4 || b == 0)
  | _ => true

/-- The context-free part of step 2 of R40 for the word `w` of row `r`. -/
def encOk (r : OpRow) (w : Nat) : Bool :=
  let f := rrrOfWord w
  (w &&& r.mask) == r.val &&
  (!r.guarded || f.x != 15#4) &&
  r.kd.windowOk f f.d && r.ka.windowOk f f.a && r.kb.windowOk f f.b &&
  fieldRules r.op f

end Sys2Proof.Machine
end

