-- ==== Sys2Proof/Config.lean ====
section
/-! DEFINITION. What the spec leaves open: the free values (notes/assumptions/4.md). Nothing in the model
evaluates one, so a statement that holds of the model holds whatever they are. -/
namespace Sys2Proof.Config

/-- The n-th undefined 32-bit value the machine draws (R15); n is a counter of the state. -/
opaque freeWord : Nat → BitVec 32
/-- The n-th undefined 64-bit value. -/
opaque freeW64 : Nat → BitVec 64
/-- The n-th undefined byte. -/
opaque freeByte : Nat → BitVec 8
/-- The opaque 32-bit handle of a node (R91). -/
opaque nodeHandle : Nat → BitVec 32
/-- The n-th key of 256 bits the random generator draws (R374). -/
opaque freeKey : Nat → BitVec 256
/-- An SFU function that R145 bounds but does not state: opcode and source value. The bounds are applied
where it is used. -/
opaque sfu : Nat → BitVec 32 → BitVec 32
/-- ML-DSA-87 signature over a report, of 4,627 bytes (R397, R399). -/
opaque sign : List (BitVec 8) → BitVec (8 * 4627)
/-- The chain of certificate slot 0, from the Icwelar root (R397). -/
opaque certChain : List (BitVec 8)
/-- The module's own 20-bit device id in its scale-up domain (R193, R403). -/
opaque deviceId : BitVec 20
/-- The port by which messages to a device leave (R405 leaves the route open). -/
opaque portOf : Nat → Nat
/-- The key of the session with another device (R404, R406). -/
opaque pairKey : Nat → BitVec 256
/-- The version and security version of a firmware image (R415 gives its parts, not their places). -/
opaque imageVer : List (BitVec 8) → BitVec 32
opaque imageSvn : List (BitVec 8) → BitVec 16
/-- The boot ROM, what measurement `i` covers of a firmware bank's bytes, and the BAR0 and MSI-X settings of a function
after a number of changes (R398 names what is measured, not its form). -/
opaque bootRom : List (BitVec 8)
opaque imagePart : Nat → List (BitVec 8) → List (BitVec 8)
opaque tdi : Nat → Nat → List (BitVec 8)
/-- The 32-byte header of an exported granule: its index, attribute, poisoned sectors and LOST mark (R408 gives
the fields, not their places), and what a header says. -/
opaque pageHeader : Nat → Option Nat → List Nat → Bool → BitVec 256
opaque readHeader : BitVec 256 → BitVec 24 × Option Nat × List Nat × Bool
end Sys2Proof.Config
end

