-- ==== Sys2Proof/Machine/State.lean ====
section
/-! DEFINITION. The state of the OZ9640, as plain data: threads, workgroup contexts, memory and the order
its writes are seen in, engines, comb units, walker, functions, slices, links and management; and the state
after a module cold reset. -/
namespace Sys2Proof.Machine

/-- A finite table keyed by number, in ascending key order. -/
abbrev Tab (α : Type) := List (Nat × α)

/-! ## Threads -/

/-- The four contexts code runs in (R35). -/
inductive Ctx where
  | L | D | S | F
  deriving DecidableEq, Repr

/-- A lane vector register with its shape tag (R93): U, A or G. -/
inductive VReg where
  | u (v : Word)
  | a (base stride : Word)
  | g (vals : List Word)
  deriving DecidableEq, Repr

/-- A fault record before it is laid out in 64 bytes (R319). `replay` is the id of the instruction that
`Func.replays` holds for it, 0 where there is nothing to replay (R20, R70). -/
structure FaultRec where
  code : Nat
  async : Bool := false
  recov : Bool := false
  nested : Bool := false
  ctx : Nat := 0
  die : Nat := 0
  unit : Nat := 0
  unitno : Nat := 0
  slice : Nat := 0
  lane : Nat := 0
  wid : Nat := 0
  hdie : Nat := 0
  node : Nat := 0
  wg : Nat := 0
  hop : Nat := 0
  hcore : Nat := 0
  pc : Va := 0
  resume : Va := 0
  addr : W64 := 0
  data : W128 := 0
  detail : Word := 0
  cycle : Word := 0
  replay : Nat := 0
  chain : Nat := 0           -- how many lanes park with it: those of its chain (R170)
  deriving DecidableEq, Repr

/-- What one lane of a class-L instruction captured when it issued: its pointer and its data. -/
structure Cap where
  lane : Nat
  ptr : W64
  data : W128
  deriving DecidableEq, Repr

/-- What memory order one lane of an access captured when it issued: the id of the write it makes, in its
thread's history from then on (R213), the writes its read must see (R216, R219), and the history its write
releases (R215). -/
structure PendOrd where
  lane : Nat
  wid : Nat
  must : List (Nat × Path)
  carry : List (Nat × Path)
  rel : BitVec 6             -- a `st.rel` also releases, on these paths, what its thread's earlier loads return
  half : Option Nat := none  -- what the access has read so far: the lower half of 16 bytes, or a limb (R171, R203)
  acqs : List (Nat × BitVec 6) := []  -- the acquire it is (R216): the places from which it orders later accesses, and the paths
  deriving DecidableEq, Repr

/-- A class-L instruction that has issued and not returned in every lane (R65, R67). `caps` are the lanes
still to return; `dst`, `cnt` the registers it writes; `tagU` that a whole write leaves it tagged U; `seq` is its
place in program order, which a replay keeps (R70, R211). -/
structure Pend where
  id : Nat
  op : Nat
  f : Rrr
  pc : Va
  caps : List Cap
  mask : Word
  dst : Nat
  cnt : Nat
  whole : Bool
  tagU : Bool
  trailed : Bool := false
  flts : List FaultRec := []
  seq : Nat := 0
  ords : List PendOrd := []
  deriving DecidableEq, Repr

/-- One window entry (R66): the result as a register with its tag, or the 64-bit result of a scalar
context; `pend` names the class-L instruction whose result it will take. -/
structure WinEnt where
  v : VReg
  s : W64
  pend : Option Nat
  deriving DecidableEq, Repr

/-- A run in progress (R60, R64): its group, how many instructions and class-L instructions it has
performed, and its window, newest first. -/
structure Run where
  mask : Word
  n : Nat
  nl : Nat
  win : List WinEnt
  deriving DecidableEq, Repr

/-- What a group waits for inside its run. -/
inductive Stall where
  | block       -- a shared general block (R102)
  | sfu         -- the SFU queue (R139)
  | miss        -- a core miss-buffer entry (R186)
  | engine      -- the die command queue (R231)
  | cmds        -- the 256 commands of its workgroup (R231)
  | homeRec     -- a home record (R260)
  | holder      -- the matrix engine's holder, or `obrel` (R280, R283)
  | matrix      -- the matrix command queue (R289)
  | comb        -- an instruction buffer (R343)
  | waggle      -- a waggle entry (R79)
  | fence       -- `fence`, `xfence`, `csync`, `syswr` and `waitr` waits
  | intake      -- the walker's intake (R332)
  | entry       -- a pending entry of the deferred table (R68)
  | fetch       -- a translation of its instruction's bytes, or of what it reads, that is still under way
  deriving DecidableEq, Repr

/-- What a lane does once its run has ended and its class-L results have returned (R64, R67). -/
inductive EndAct where
  | exit
  | join (j : Nat) (safe : Bool)
  | bar (n : Nat) (parity safe : Bool)
  | mwait
  | rti
  | home
  | wpop (d : Nat) (whole : Bool)
  | toSave (idx : Nat)       -- released at a safe point to be taken, while the deferred table drains (R73, R76)
  deriving DecidableEq, Repr

/-- Where a lane stands (R58, R330). -/
inductive LaneSt where
  | ready | join | bar | fault | waggle | mwait | exited | never | away
  deriving DecidableEq, Repr

/-- What memory order a thread holds (R210, R213 to R219): its history, the writes its later accesses must
see, the paths its later writes release, and the writes its reads have returned, each with the path of the
read. -/
structure Ord where
  hist : List (Nat × Path)
  must : List (Nat × Path)
  rel : BitVec 6
  seen : List (Nat × Path) := []
  deriving DecidableEq, Repr

/-- A thread that has neither written nor read. -/
def Ord.empty : Ord := { hist := [], must := [], rel := 0 }

/-- One lane, or the one thread of a scalar context. `act` is what it does or waits to complete at the
instruction at `pc`; `flts` are faults not yet delivered, `posted` the delivered record it waits on;
`waitCmds` the matrix commands an `mwait` waits for. -/
structure Lane where
  pc : Va
  st : LaneSt
  act : Option EndAct
  preds : BitVec 7
  flts : List FaultRec
  posted : List Nat
  intrap : Bool
  ord : Ord
  lastRun : Nat
  waitCmds : List Nat
  parkWith : Option Nat := none   -- the lane of its chain whose fault it is parked with (R170)
  deriving DecidableEq, Repr

/-- The limb control register (R155). -/
structure Lcr where
  log2n : BitVec 3
  carry : BitVec 16
  ovf : BitVec 16
  spill : List Word
  deriving DecidableEq, Repr

/-- Which routine a strand runs (R327, R331): a save routine by its safe point, or a restore routine with the
address at which the warp goes on after it. -/
inductive Routine where
  | none
  | save (idx : Nat)
  | restore (pc : Nat)
  deriving DecidableEq, Repr

/-- A forager's own state (R262, R263): its home lane, carried registers and hop count, and where it is:
the unit that hosts it, or none while it is in transit or in its home record. -/
structure Forager where
  home : Nat
  lane : Nat
  first : Nat
  count : Nat
  hop : Nat
  unit : Option Nat      -- core 16*die+core, or 1024 + 16*stack + stack core
  slot : Option Nat
  queued : Bool
  dest : Option Nat
  recalled : Bool
  written : BitVec 56    -- the registers it has written at this host, readable like the carried set (R263)
  grp : Nat := 0         -- the issue group of its slot warp's run that it belongs to; 0 outside one (R268)
  took : Bool := false   -- whether its last instruction took a branch
  deriving DecidableEq, Repr

/-- A thread or warp: a warp of 32 lanes, a lead thread, an instance on a stack core, or a forager. -/
structure Strand where
  ctx : Ctx
  cx : Nat
  wid : Nat
  lanes : List Lane
  vregs : List VReg
  sregs : List W64
  js : List Word
  lcr : Lcr
  run : Option Run
  runEnd : Bool
  trail : Option Rrr
  pends : List Pend
  popped : Nat
  stall : Option Stall
  waits : Option Stall       -- what its group has stalled for last, from its first stall until its instruction performs
  places : List (Stall × Nat)  -- its places in the queues it has stalled for, kept until then (R102, R139, R186, R231)
  walked : List Nat := []    -- the pages whose walk its fetch has waited for (R185)
  routine : Routine
  saveForm : Option Nat
  deferred : List Nat        -- the trailed entries that are pending when a full save is forced (R73, R330)
  readyAt : Nat              -- when its current or next run became ready (R62); 0 while it has none
  passed : Nat
  fg : Option Forager
  deriving DecidableEq, Repr

/-! ## Workgroup contexts -/

/-- The fields of a kernel header (R50). -/
structure Header where
  trap : Bool := false
  comb : Bool := false
  lead : Bool := false
  limbs : Bool := false
  laneEnt : Nat := 0
  leadEnt : Nat := 0
  combEnt : Nat := 0
  codeSize : Nat := 0
  trapEnt : Nat := 0
  safeTab : Nat := 0
  safeCnt : Nat := 0
  sram : Nat := 0
  wgSize : Nat := 0
  vregs : Nat := 0
  gmax : Nat := 0
  barriers : Nat := 0
  forage : Nat := 0
  groups : Nat := 0
  gkinds : Nat := 0
  safe : List (Nat × Nat × Nat) := []     -- the safe-point table (R51)
  deriving DecidableEq, Repr

/-- A named barrier (R253), and the parity its waiters hold is in their lanes. -/
structure Bar where
  pending : Int := 0
  arrived : Nat := 0
  threads : Nat := 0
  err : Nat := 0
  lerr : Nat := 0
  out : Nat := 0
  cnterr : Bool := false
  stkcode : Nat := 0
  stk : Bool := false
  phase : Bool := false
  valid : Bool := false
  carry : List (Nat × Path) := []         -- what the arrivals of this phase hand over (R213)
  lcarry : List (Nat × Path) := []        -- what the last phase to complete gives its waiters
  deriving DecidableEq, Repr

/-- One matrix command (R289, R302). -/
structure MCmd where
  id : Nat
  strand : Nat
  lane : Nat
  op : Nat
  d : Nat
  x : Nat
  cx : Nat
  aBase : W64
  aDesc : W64
  bBase : W64
  bDesc : W64
  aTile : List Word
  bTile : List Word
  shape : List Byte
  aFmt : Nat
  bFmt : Nat
  step : Nat
  status : Option Nat
  ord : Ord
  wids : List (Nat × Path)
  deriving DecidableEq, Repr

/-- An engine command (R227 to R239, R244 to R250). `block` holds what it read at start (its command block,
then a `cp.t`'s two tensor records, or the bytes a `cp.gcm` has taken); `checked` says that a `cp.gcm` has
passed its counter check. -/
structure Cmd where
  id : Nat
  op : Nat
  cx : Nat
  fn : Nat
  strand : Nat
  lane : Nat
  nb : Bool
  qs : Bool
  mode : Bool                -- SCT or ENC
  bar : Nat
  opd : W64
  opa : W64
  word : Word
  nominal : Nat
  landed : Nat
  started : Bool
  checked : Bool
  cancel : Bool
  block : List Byte
  ord : Ord
  node : Option Nat          -- a copy node's command
  wids : List Nat            -- the writes its beats have made
  marks : List Nat := []     -- the sectors a `cp.gcm` decrypt has poisoned before its first write (R250)
  deriving DecidableEq, Repr

/-- A workgroup or comb instance (R56, R59, R329, R362). `core` is the core that holds it, or the stack
core of an instance (1024 + 16*stack + core). -/
structure Cx where
  hdr : Header
  image : W64
  args : W64
  node : Nat
  wg : Nat
  fn : Nat
  slice : Nat
  core : Nat
  resident : Bool
  started : Bool
  begun : Bool := false      -- its first warp has issued its first instruction (R310)
  strands : List Nat
  lead : Option Nat
  waggle : List W64
  freed : Nat
  waggleOrd : List Ord
  wqShared : Nat             -- how many of its waggle entries lie outside its reserve (R79)
  bars : List Bar
  nbStk : Bool
  nbStkcode : Nat
  sramBase : Nat
  frame : Option Nat
  privBase : Nat             -- PRIVBASE.BASE and PRIVCFG.STRIDE at admission (R191)
  privStride : Nat
  fstat : List Word
  mstk : Bool
  mstkcode : Nat
  mfstep : Nat
  werr : Nat
  wstep : Nat
  mwids : List (Nat × Path)  -- writes of ended matrix commands, for `mwait` (R298)
  preempt : Option Nat       -- clock of a pre-emption request
  preemptCyc : Nat := 160000 -- PREEMPTTO.CYC as the request found it (R325)
  forced : Bool              -- its threads stop where a forced full save stops them (R328, R393)
  saveSlot : Option Nat      -- the save area it holds
  area : Nat := 0            -- the virtual address of that area as CTXPOOL and CTXCFG gave it then (R325, R428)
  savedForm : Option Nat
  mheld : List MCmd          -- the matrix commands of its save area's image, with their order (R302)
  swOff : Option Nat         -- SWOFF, once a save routine of it has been entered (R327)
  saveBad : Option (Nat × Nat × Nat)  -- an access to its save area that failed: code, DETAIL and address (R428)
  readyAge : Nat
  prio : Nat
  admittedAt : Nat
  order : Ord                -- history the context started with
  deriving DecidableEq, Repr

/-- A comb instance's own registers beside its strand (R338, R350, R360). -/
structure Inst where
  cx : Nat
  strand : Nat
  chan : Nat                 -- own channel, global number
  all : Bool
  modeChan : Nat
  modeBank : Nat
  stk : Bool
  stkcode : Nat
  bank : Nat
  pch : Nat
  outCmds : List Nat         -- ids of outstanding commands
  wids : List (Nat × Path)   -- COMB writes of ended commands not yet in the history
  firstErr : Nat
  deriving DecidableEq, Repr

/-! ## Memory -/

/-- What a write does to its bytes when it is applied (R195, R205, R206). -/
inductive WrOp where
  | store
  | add (size : Nat)
  | fadd
  deriving DecidableEq, Repr

/-- A write: issued, then applied at its home, then visible to observers one by one (R195, R210). `strand` and `lane`
are the home warp and lane of the thread it belongs to, `src` the strand that issued it. -/
structure Wr where
  id : Nat
  strand : Nat
  lane : Nat
  cx : Nat
  fn : Nat
  path : Path
  die : Nat
  loc : Nat
  op : WrOp
  data : List Byte
  strong : Bool              -- visible to every path once applied (R212)
  carry : List (Nat × Path)  -- the history it releases (R215)
  vis : List (Path × Nat)    -- the observers that see it
  all : Bool                 -- every observer sees it
  cmd : Option Nat           -- the engine command or class-L instruction that made it
  wait : BitVec 6            -- the earlier work a `st.rel` waits for before it is applied (R214)
  pc : Va
  ptr : W64
  detail : Nat := 0          -- limb and chain of an `lst` (R170)
  src : Nat := 0
  owner : Option Nat := none   -- the exporting function whose bytes it writes, where that is not `fn` (R403)
  beat : Nat := 0              -- for a copy engine's write: 1 and the nominal byte at which its beat begins (R230)
  frec : Option FaultRec := none  -- the fields of R319 that its issuer gives a record of it, and the data it captured (R200)
  deriving DecidableEq, Repr

/-- One 64 KiB granule of device DRAM (R181, R199, R381, R408). -/
structure Gran where
  attr : Option Nat
  lost : Bool
  dirty : Bool
  spare : Bool
  held : Bool
  deriving DecidableEq, Repr

/-- A cached translation (R184): a leaf of `size` bytes at virtual address `base` of a function, or with `ats` the
result of an ATS translation of the I/O virtual page at `base`: host address, R and W. -/
structure TlbEnt where
  fn : Nat
  base : Nat
  size : Nat
  leaf : W64
  ats : Option (W64 × Bool × Bool) := none
  deriving DecidableEq, Repr

/-- A cached table entry of level 1 or 2 (R184), read in the table at `table`. -/
structure WalkEnt where
  fn : Nat
  level : Nat
  base : Nat
  table : Nat
  entry : W64
  deriving DecidableEq, Repr

/-- An entry of a die's miss queue (R184 to R186): the page, the cores that wait, each with a miss-buffer entry for it,
whether engines wait, and whether its walk is in progress. -/
structure Miss where
  fn : Nat
  page : Nat
  cores : List Nat
  eng : Option Bool := none  -- whether engines of the die wait for it, and for a write (R186)
  walking : Bool := false    -- one of the die's 64 walkers has taken it (R184)
  deriving DecidableEq, Repr

/-- An ATS translation of one I/O virtual page that is asked for: `reply` is none while the request is
outstanding, and a page that is not present while `pri` says that a page request is (R394, R395). A translation
that succeeds goes to the die TLB (R184). -/
structure Ats where
  fn : Nat
  iova : Nat
  reply : Option AtsReply
  pri : Bool
  retried : Bool
  waits : List Nat := []     -- the accesses that have coalesced on it and not had its answer: 2i an instruction or command, 2i + 1 a fetch
  deriving DecidableEq, Repr

/-- An engine's lease (R234 to R236): the function, the command in progress, the clock at the grant, the length in
cycles, the clock up to which USED counts it, and whether the command has landed a beat in it. -/
structure Lease where
  fn : Nat
  cmd : Option Nat
  since : Nat
  len : Nat
  paid : Nat
  beat : Bool
  deriving DecidableEq, Repr

/-- What a die holds (R184, R225, R231, R234, R311). The first 1,024 misses are its miss queue; `walkFn` is the
function whose miss a walker took last (R185). -/
structure Die where
  tlb : List TlbEnt
  wcache : List WalkEnt
  misses : List Miss
  walkFn : Nat
  walked : List (Nat × Nat) := []  -- function and page of the walks for engines that have ended without a fill (R186)
  ats : List Ats
  queue : List Cmd
  engines : Tab Lease        -- engine 0 to 15 copy, 16 to 19 gather
  used : Tab Nat
  halvings : Nat             -- how often USED has been halved (R234)
  cycleBase : Nat
  deriving DecidableEq, Repr

/-- A reservation record (R282). -/
structure Resv where
  fmt : Nat
  soff : Nat
  off : Nat
  len : Nat
  deriving DecidableEq, Repr

/-- What a core holds beside its strands and memory (R279, R259). -/
structure Core where
  leadHold : Option Nat      -- the lead context that issued last on the lead port (R78)
  tlb : List TlbEnt
  holder : Option Nat
  resv : Tab Resv
  mqueue : List MCmd
  arrivals : List Nat        -- forager strands waiting for a slot, oldest first
  arrived : Word
  outOfService : Bool
  clockStep : Nat            -- lane clock in units of 40 MHz (R425)
  deriving DecidableEq, Repr

/-- A comb command in a bank's instruction buffer (R343, R344): `wave` is set once its wave has begun. -/
structure CCmd where
  id : Nat
  op : Nat
  f : Rrr
  inst : Nat
  fn : Nat
  slice : Nat
  die : Nat
  aVal : W64
  bVal : W64
  eff : Option Nat
  ord : Ord
  parity : Bool              -- its word fails its parity check (R347)
  bad : Bool := false        -- its result will fail its residue check (R347)
  deriving DecidableEq, Repr

/-- A comb unit (R342). -/
structure Bank where
  x : List (List Word)
  a : List (List Word)
  active : List Word
  shadow : List Word
  faulted : BitVec 64
  buf : List CCmd
  deriving DecidableEq, Repr

/-- A pseudo-channel beyond its rows (R376, R382). -/
structure Chan where
  epoch : Nat
  sweep : Bool               -- a new EPOCH has begun and the channel is not swept yet
  swept : List Nat           -- the rows that are under the new EPOCH all the same
  exhausted : Bool
  degraded : Bool
  spares : Nat
  deriving DecidableEq, Repr

/-! ## Walker -/

/-- Where a node stands (R305 to R309). -/
inductive NodeSt where
  | waiting | ready | pool | running | done
  deriving DecidableEq, Repr

/-- A group table entry the walker holds (R312, R315). -/
structure Group where
  kind : Nat
  chan : Nat
  count : Nat
  members : List Nat
  gen : Word
  arrived : List Nat
  carry : List (Nat × Path)              -- what the completed generations released (R315)
  next : List (Nat × Path)               -- what the arrivals of this generation release
  deriving DecidableEq, Repr

/-- A collective node in progress (R407): its record, its channel's ranks and this device's rank, what has
arrived from other ranks in order of arrival, whose acknowledgements came, whether its destination is written,
and its engine. -/
structure Coll where
  body : List Byte
  ids : List Word
  rank : Nat
  own : List Word
  parts : List (Nat × List Word)
  acks : List Nat
  wrote : Bool := false
  eng : Nat := 0
  deriving DecidableEq, Repr

/-- A node in flight (R55, R305). `errAt` is the clock at which the command
that gave `status` ended. -/
structure Node where
  record : W64               -- address of its record
  fn : Nat
  slice : Nat
  kind : Nat
  prio : Nat
  nwg : Nat
  body : W64
  args : W64
  succ : W64
  succCnt : Nat
  stagger : Nat
  phase : Nat
  status : Nat
  st : NodeSt
  hdr : Header
  groups : List Group
  nextWg : Nat
  live : Nat
  completed : List Nat
  startedAt : Option Nat
  readyAge : Nat
  due : Option Nat
  gangCfg : Nat := 0         -- GANGCFG as that wait found it (R325)
  held : Bool
  gangPre : Bool
  launch : Option Nat        -- remote launch entry it is a root of
  order : Ord
  dieStart : Tab Nat
  errAt : Nat
  coll : Option Coll
  deriving DecidableEq, Repr

/-! ## Functions, slices, links and management -/

/-- A GCM stream (R248, R401). -/
structure Stream where
  valid : Bool
  sid : Word
  last : W64
  key : BitVec 256
  deriving DecidableEq, Repr

/-- A class-L instruction of one lane that faulted recoverably and waits for its record's acknowledgement;
`go` says that RETRY was given (R70, R323). -/
structure Replay where
  strand : Nat
  lane : Nat
  pend : Pend
  go : Bool
  deriving DecidableEq, Repr

/-- A stack core (R259, R339): the foragers waiting for a slot, oldest first, and how many have arrived; the party
that issued last on its port (2i for instance strand i, 2w + 1 for slot warp w), and the port cycles of each slice. -/
structure SCore where
  arrivals : List Nat
  arrived : Word
  turn : Option Nat
  last : Tab Nat := []       -- the party that each slice served last (R339)
  used : Tab Nat
  deriving DecidableEq, Repr

/-- A function: its system registers (R176, R187, R191, R325, R369, R401, R403) and its side of the
host link (R389 to R401, R408). `regs` maps a register number to its value where it is not the reset
value of R14. -/
structure Func where
  regs : Tab W64
  sqHead : Nat
  fqTail : Nat
  mapgen : Nat
  fqWait : List FaultRec             -- records waiting for the queue
  fqWaitOf : List (Option (Nat × Nat))   -- the strand and lane each parks
  fqPosted : Tab (Nat × Nat × FaultRec)  -- queue index to the parked lane and record that wait for its FQACK
  fqStuck : Bool                     -- the write of the oldest waiting record failed and is not tried again yet (R323)
  replays : List Replay
  saveAreas : List Nat
  frames : List Nat
  streams : List Stream
  ifState : Nat
  quiesce : Option Bool              -- being quiesced, and whether with SAVE (R393)
  saved : Bool := false              -- QUIESCED after a SAVE (R397)
  cfgGen : Nat := 0                  -- how often the PF has changed its BAR, SR-IOV or bus settings (R392, R398)
  intcause : BitVec 4
  ide : Option (BitVec 256)
  migKey : Option (BitVec 256)
  migPeer : BitVec 20
  exportCtr : Nat
  importCtr : Nat
  meas5 : Option (BitVec 512)
  heldLaunch : List (Nat × Nat × Word × W64)
  deriving DecidableEq, Repr

/-- A slice (R365, R366, R368, R374). -/
structure Slice where
  st : Nat
  prot : Bool
  dispw : Nat
  leasew : Nat
  stackw : Nat
  fsq : Nat
  barq : Nat
  rpq : Nat
  keyValid : Bool
  keyGen : Nat
  keyIx : Nat                -- which draws of the random generator its keys are
  deriving DecidableEq, Repr

/-- An SPDM session (R397, R410): the function it is bound to, whether its requester presented the module owner's
certificate, and its transcript hash at key-exchange finish. -/
structure Session where
  fn : Option Nat
  owner : Bool
  transcript : BitVec 512
  deriving DecidableEq, Repr

/-- A firmware bank (R415); `valid` says that its signature verifies and that nothing has marked it since. -/
structure FwBank where
  valid : Bool
  ver : Word
  svn : Nat
  bytes : List Byte
  deriving DecidableEq, Repr

/-- What the machine has sent outside: completions, interrupts, messages. -/
inductive OutMsg where
  | msix (f k : Nat)
  | mmioData (v : W64)
  | mmioUr
  | mmioDropped
  | atsRequest (f : Nat) (iova : Nat) (t ide : Bool)   -- its T bit, and whether it travels on the function's IDE stream (R389)
  | pageRequest (f : Nat) (iova : Nat) (t ide : Bool)
  | invalidateDone (tag : Nat)
  | accepted (what : Nat)
  | refused (what reason : Nat)
  | bytes (what : Nat) (b : List Byte)
  | peer (device : Nat) (b : List Byte)
  | collAck (device rank : Nat)                        -- a contribution of this device's rank has been applied (R407)
  | event (code arg : Nat)
  deriving DecidableEq, Repr

/-- A message for another device (R405): its channel, device and size in flits, the collective node that sends it, and
what it carries. -/
structure Msg where
  vc : Nat
  dev : Nat
  flits : Nat
  node : Option Nat
  body : OutMsg
  deriving DecidableEq, Repr

/-- The management controller (R369, R412, R415 to R427). -/
structure Mgmt where
  chanOwner : Tab Nat        -- channels not owned by slice 0; 65 is free, 66 being scrubbed (R384)
  coreOwner : Tab Nat
  leaseCyc : Nat
  banklim : Tab Nat          -- LIM where it is not 8
  slcArg : W64
  slcBusy : Bool
  slcOp : Nat
  slcResult : Nat
  slcCmd : W64
  slcPend : Option Nat               -- the result of a command that has done its work
  slcPhase : Bool                    -- REMCH or REMCORE refuses new accesses and waits for those in flight
  hflBase : W64
  hflEntries : Nat
  hflHead : Nat
  hflTail : Nat
  hflDropped : Nat
  hflWait : List (List Byte) := []   -- log records whose page is being translated, oldest first (R386)
  rstBusy : Bool
  rstLevel : Nat
  rstResult : Nat
  rstRun : Option (Nat × Nat × Nat)   -- level, kind, target of the reset in progress
  rstPend : Option Nat                -- its result, once it has done its work
  rstQueue : List (Nat × Nat × Nat)
  rstSaved : List (Nat × Nat)         -- contexts an engine reset saved, and the core (or 2048 + channel) that waits for them
  power : Nat
  pwrcap : Nat
  stage : Nat
  hold3 : Bool
  hold4 : Bool
  tripped : Bool
  temps : Tab Nat
  flow : Nat
  bankA : FwBank
  bankB : FwBank
  activeB : Bool
  minsvn : Nat
  fwstate : Nat
  failcnt : Nat
  reason : Nat
  boot : Nat
  syncSeq : Nat
  counters : Tab Nat         -- 16384 + port: flits sent again; the others as `State.countSlice` and `State.countError` say
  records : Tab (List W64)
  linksDown : List Nat
  hostLink : Nat := 0x63     -- speed and width codes of the host link (R420)
  sup : Nat := 128           -- scale-up ports up
  sout : Nat := 8            -- scale-out ports up
  vcs : Tab Nat              -- 4 * port + channel, where HOLD stands: the flits its sender still sends (R405)
  reserved : List Nat        -- the ports where a long message has its reservation
  linkQ : List Msg := []     -- the messages that wait for their channel or their reservation, oldest first
  disp : Tab Nat             -- function * 8 + level
  keyDraws : Nat
  invalidations : List (Nat × Nat × Nat × Nat)  -- tag, function, iova, pages
  nextTag : Nat
  rlBusy : Tab (List Nat)
  sessions : List Session := []       -- the SPDM sessions set up (R397, R410)
  via : Nat := 0                      -- the session the messages now handled arrive in; a number no session has, for none
  actHeld : List Nat                  -- the functions in RUN an activation has taken to QUIESCED (R417)
  deriving DecidableEq, Repr

/-- What the outside or the hardware makes happen next. `via` names the session of the messages that follow, `links`
gives the links' trained states (R420), `tdispReport` asks for a function's interface state (R391) and `certificate` for
the chain of a certificate slot (R397). -/
inductive Item where
  | ev (i : Instr)
  | run (strand : Nat)
  | tick
  | hostWrite (addr : Nat) (bytes : List Byte)
  | corrupt (sector : Nat)
  | retire (gran : Nat)
  | parity (chan bank pos : Nat)
  | badResult (chan bank : Nat)
  | residue (chan bank lane : Nat)
  | corrected (slice unit : Nat)
  | via (session : Nat)
  | links (host sup sout : Nat)
  | tdispReport (f : Nat)
  | certificate (slot : Nat)
  deriving DecidableEq, Repr

/-- The whole machine. -/
structure State where
  mem : List Host.Cell
  inflight : List Wr
  applied : List Wr
  gran : Tab Gran
  poison : List Nat
  rowver : Tab Nat
  l2bad : List (Nat × Nat)
  strands : Tab Strand
  cxs : Tab Cx
  insts : Tab Inst
  cur : Nat
  agenda : List Item
  clock : Nat
  turn : Nat                 -- whose turn it is when nothing is asked for: a strand's where it is even (the model's own)
  sweep : List Instr         -- the steps of the hardware that are still to be taken in this round (the model's own)
  freeCtr : Nat
  nextId : Nat
  dies : Tab Die
  cores : Tab Core
  chans : Tab Chan
  banks : Tab Bank
  units : Tab SCore          -- stack cores, by unit number
  nodes : Tab Node
  intake : List Nat
  funcs : Tab Func
  slices : Tab Slice
  mg : Mgmt
  out : List OutMsg
  deriving DecidableEq, Repr

/-- A fault ends a run of the model only where the spec says the place does not exist. No meaning of this
model raises one: an access the spec refuses is a trap, and a trap is a next state. Safe. -/
inductive Fault where
  | noSuchAddress
  deriving DecidableEq, Repr

/-- A refusal: an instruction without a meaning. `notModelled` is raised by an arm of `exec` alone. Safe. -/
inductive Refusal where
  | notModelled (mnemonic : String)
  deriving DecidableEq, Repr

/-! ## Reset (R365, R414) -/

/-- A function after a module cold reset: every register at its Reset value (R14). -/
def Func.reset : Func where
  regs := []
  sqHead := 0
  fqTail := 0
  mapgen := 0
  fqWait := []
  fqWaitOf := []
  fqPosted := []
  fqStuck := false
  replays := []
  saveAreas := []
  frames := []
  streams := List.replicate 8 ⟨false, 0, 0, 0⟩
  ifState := 0
  quiesce := none
  intcause := 0
  ide := none
  migKey := none
  migPeer := 0
  exportCtr := 0
  importCtr := 0
  meas5 := none
  heldLaunch := []

/-- Slice 0 after a module cold reset (R365); its parameters are notes/assumptions/7.md. -/
def Slice.zero : Slice where
  st := 1
  prot := false
  dispw := 1
  leasew := 1
  stackw := 1
  fsq := 64
  barq := 512
  rpq := 65536
  keyValid := true
  keyGen := 0
  keyIx := 0

/-- A slice that does not exist. -/
def Slice.absent : Slice where
  st := 0
  prot := false
  dispw := 0
  leasew := 0
  stackw := 1
  fsq := 0
  barq := 0
  rpq := 1
  keyValid := false
  keyGen := 0
  keyIx := 0

/-- The management controller after a module cold reset. -/
def Mgmt.reset : Mgmt where
  chanOwner := []
  coreOwner := []
  leaseCyc := 0x09C40
  banklim := []
  slcArg := 0
  slcBusy := false
  slcOp := 0
  slcResult := 0
  slcCmd := 0
  slcPend := none
  slcPhase := false
  hflBase := 0
  hflEntries := 0
  hflHead := 0
  hflTail := 0
  hflDropped := 0
  rstBusy := false
  rstLevel := 0
  rstResult := 0
  rstRun := none
  rstPend := none
  rstQueue := []
  rstSaved := []
  power := 0
  pwrcap := 5600
  stage := 0
  hold3 := false
  hold4 := false
  tripped := false
  temps := []
  flow := 3000
  bankA := ⟨true, 0, 0, []⟩
  bankB := ⟨false, 0, 0, []⟩
  activeB := false
  minsvn := 0
  fwstate := 0
  failcnt := 0
  reason := 0
  boot := 1
  syncSeq := 0
  counters := []
  records := []
  linksDown := []
  vcs := []
  reserved := []
  disp := []
  keyDraws := 1
  invalidations := []
  nextTag := 0
  rlBusy := []
  actHeld := []

/-- The machine right after a module cold reset: no thread, no node, memory zero, slice 0 with every
channel and core, every system register at its Reset value. -/
def State.reset : State where
  mem := []
  inflight := []
  applied := []
  gran := []
  poison := []
  rowver := []
  l2bad := []
  strands := []
  cxs := []
  insts := []
  cur := 0
  agenda := []
  clock := 0
  turn := 0
  sweep := []
  freeCtr := 0
  nextId := 1
  dies := []
  cores := []
  chans := []
  banks := []
  units := []
  nodes := []
  intake := []
  funcs := []
  slices := [(0, Slice.zero)]
  mg := Mgmt.reset
  out := []

end Sys2Proof.Machine
end

