-- ==== Sys2Proof/Machine/Mem.lean ====
section
/-! DEFINITION. Tables, bytes and the flat memory: one canonical list of cells that holds device DRAM,
the SRAM slices, the scale memories, the accumulators and host memory in disjoint regions. -/
namespace Sys2Proof.Machine

/-! ## Tables -/

/-- The entry of a table at a key. -/
def tget {α : Type} : Tab α → Nat → Option α
  | [], _ => none
  | (k, v) :: t, n => if k = n then some v else tget t n

/-- A table with one entry written, kept in ascending key order. -/
def tset {α : Type} : Tab α → Nat → α → Tab α
  | [], n, x => [(n, x)]
  | (k, v) :: t, n, x =>
    if n < k then (n, x) :: (k, v) :: t
    else if k = n then (n, x) :: t
    else (k, v) :: tset t n x

/-- A table with one entry removed. -/
def tdel {α : Type} (t : Tab α) (n : Nat) : Tab α := t.filter (fun p => p.1 != n)

/-- The entry at a key, or a default. -/
def tgetD {α : Type} (t : Tab α) (n : Nat) (d : α) : α := (tget t n).getD d

/-- A table with every entry changed. -/
def tmap {α β : Type} (t : Tab α) (f : α → β) : Tab β := t.map (fun e => (e.1, f e.2))

/-- A table of counts with one count changed. -/
def tbump (t : Tab Nat) (n k : Nat) : Tab Nat := tset t n (tgetD t n 0 + k)

/-- A table of telemetry counters with one counted up: 64 bits, saturating (R421). -/
def tcount (t : Tab Nat) (n : Nat) : Tab Nat := tset t n (min (tgetD t n 0 + 1) (2 ^ 64 - 1))

/-! ## Bytes and values (R11) -/

/-- The value of bytes, the lowest address first. -/
def leNat : List Byte → Nat
  | [] => 0
  | b :: bs => b.toNat + 256 * leNat bs

/-- The low `n` bytes of a value, the lowest first. -/
def toLE : Nat → Nat → List Byte
  | 0, _ => []
  | n + 1, v => BitVec.ofNat 8 v :: toLE n (v / 256)

/-- Bits hi to lo of a value (R16). -/
def bits (v hi lo : Nat) : Nat := v / 2 ^ lo % 2 ^ (hi + 1 - lo)

/-- Bits hi to lo of a 64-bit value. -/
def bits64 (v : W64) (hi lo : Nat) : Nat := bits v.toNat hi lo

/-- Bit i of a number. -/
def bit (v i : Nat) : Bool := v / 2 ^ i % 2 == 1

/-- The signed reading of the low `w` bits. -/
def toSigned (w v : Nat) : Int := if v % 2 ^ w < 2 ^ (w - 1) then (v % 2 ^ w : Int) else (v % 2 ^ w : Int) - 2 ^ w

/-- An integer reduced to `w` bits. -/
def wrapTo (w : Nat) (v : Int) : Nat := (v % (2 ^ w : Int)).toNat

/-! ## Memory -/

/-- What a byte of memory reads as; a byte nothing has written reads 0 (R414, notes/assumptions/3.md). -/
def mget : List Host.Cell → Nat → Byte
  | [], _ => 0
  | (k, v) :: m, a => if k = a then v else mget m a

/-- The cells that hold a run of bytes; a zero byte needs no cell. -/
def cellsOf : Nat → List Byte → List Host.Cell
  | _, [] => []
  | a, b :: bs => if b = 0 then cellsOf (a + 1) bs else (a, b) :: cellsOf (a + 1) bs

/-- Memory with bytes written from an address upward. -/
def mwrite (m : List Host.Cell) (a : Nat) (bs : List Byte) : List Host.Cell :=
  m.filter (fun c => c.1 < a) ++ cellsOf a bs ++ m.filter (fun c => a + bs.length ≤ c.1)

/-- Memory with every byte from lo up to hi zero. -/
def mclear (m : List Host.Cell) (lo hi : Nat) : List Host.Cell :=
  m.filter (fun c => c.1 < lo || hi ≤ c.1)

/-- The n bytes from an address upward. -/
def mread (m : List Host.Cell) (a n : Nat) : List Byte := (List.range n).map (fun i => mget m (a + i))

/-- The canonical form: addresses strictly rising from `lo`, no cell holding the byte an unlisted
address reads as. -/
def Memory.wfFrom : Nat → List Host.Cell → Bool
  | _, [] => true
  | lo, (k, v) :: m => decide (lo ≤ k) && v != 0 && Memory.wfFrom (k + 1) m

/-- The canonical form of a memory. -/
def Memory.wf (m : List Host.Cell) : Bool := Memory.wfFrom 0 m

/-! ## Regions -/

/-- Device DRAM is [0, 2^40) (R182). -/
def dramSize : Nat := 2 ^ 40
/-- The flat place of an SRAM byte: core and offset (R189). -/
def sramLoc (core off : Nat) : Nat := 2 ^ 40 + core * 2 ^ 22 + off
/-- The flat place of a scale-memory byte (R279). -/
def scaleLoc (core off : Nat) : Nat := 2 ^ 41 + core * 65536 + off
/-- The flat place of element (i, j) of accumulator m (R279, R302). -/
def accLoc (core m i j : Nat) : Nat := 2 ^ 41 + 2 ^ 27 + core * 262144 + m * 65536 + i * 512 + j * 4
/-- The flat place of a byte of host memory (R183). -/
def hostLoc (a : Nat) : Nat := 2 ^ 64 + a

/-- Whether a flat place is device DRAM. -/
def isDram (l : Nat) : Bool := l < 2 ^ 40
/-- Whether a flat place is SRAM. -/
def isSram (l : Nat) : Bool := 2 ^ 40 ≤ l && l < 2 ^ 41
/-- Whether a flat place is host memory. -/
def isHost (l : Nat) : Bool := 2 ^ 64 ≤ l && l < 2 ^ 72
/-- The place that names a byte of a peer's window; no byte of it is held here (R193). -/
def peerLoc (dev off : Nat) : Nat := 2 ^ 72 + dev * 2 ^ 40 + off
/-- Whether a flat place is a peer's. -/
def isPeer (l : Nat) : Bool := 2 ^ 72 ≤ l
/-- The device of such a place. -/
def peerDev (l : Nat) : Nat := (l - 2 ^ 72) / 2 ^ 40

/-- The granule of a DRAM address (R181). -/
def granOf (l : Nat) : Nat := l / 65536
/-- The global channel number of a DRAM address (R182, R365). -/
def chanOf (l : Nat) : Nat := l / 2 ^ 30
/-- The bank of a DRAM address, 0 to 15 (R182). -/
def bankOf (l : Nat) : Nat := l / 1024 % 16
/-- The row of a DRAM address (R182). -/
def rowOf (l : Nat) : Nat := l / 16384 % 65536
/-- The DRAM address of a row's first byte: channel, row, bank. -/
def rowLoc (chan row bank : Nat) : Nat := chan * 2 ^ 30 + row * 16384 + bank * 1024
/-- The 32-byte sectors that n bytes at a place touch (R198). -/
def sectorsOf (l n : Nat) : List Nat :=
  (List.range ((l + n - 1) / 32 + 1 - l / 32)).map (fun i => l / 32 + i)

end Sys2Proof.Machine
end

