-- ==== Sys2Proof/Machine/Operands.lean ====
section
/-! DEFINITION. Lane masks, registers and operands: what a field names in each context (R22 to R26, R57,
R66, R92 to R96), and how a result is written and tagged. -/
namespace Sys2Proof.Machine

/-! ## Lane masks -/

/-- Whether lane k is in a mask. -/
def inMask (m : Word) (k : Nat) : Bool := m.getLsbD k

/-- The lanes of a mask, ascending. -/
def lanesOf (m : Word) : List Nat := (List.range 32).filter (inMask m)

/-- The mask of the lanes that satisfy a condition. -/
def maskOf (p : Nat → Bool) : Word := BitVec.ofNat 32 ((List.range 32).foldl (fun m k => if p k then m + 2 ^ k else m) 0)

/-- The lowest lane of a mask; 0 when it is empty. -/
def lowest (m : Word) : Nat := (lanesOf m).headD 0

/-- A lane that was never launched (R57). -/
def Lane.never : Lane := ⟨0, .never, none, 0, [], [], false, Ord.empty, 0, [], none⟩

/-- The thread that lane k of strand i runs: its home warp and lane (R224). -/
def Strand.thread (st : Strand) (i k : Nat) : Nat × Nat := match st.fg with | some g => (g.home, g.lane) | none => (i, k)

/-- A lane of a strand. -/
def Strand.lane (st : Strand) (k : Nat) : Lane := st.lanes.getD k Lane.never

/-- Whether a forager may read a register: one it carries or has written (R263). -/
def Forager.reads (g : Forager) (n : Nat) : Bool := (decide (g.first ≤ n) && decide (n < g.first + g.count)) || g.written.getLsbD n

/-- A strand with the lanes of a mask changed. -/
def Strand.mapLanes (st : Strand) (m : Word) (f : Nat → Lane → Lane) : Strand :=
  { st with lanes := st.lanes.mapIdx (fun k l => if inMask m k then f k l else l) }

/-- A strand with one lane changed. -/
def Strand.setLane (st : Strand) (k : Nat) (f : Lane → Lane) : Strand :=
  { st with lanes := st.lanes.mapIdx (fun j l => if j = k then f l else l) }

/-- The lanes of a strand that satisfy a condition. -/
def Strand.laneMask (st : Strand) (p : Lane → Bool) : Word :=
  maskOf (fun k => match st.lanes[k]? with | some l => p l | none => false)

/-- A lane is live from launch until it exits (R58). -/
def Lane.live (l : Lane) : Bool := l.st != .exited && l.st != .never

/-- The live lanes. -/
def Strand.liveMask (st : Strand) : Word := st.laneMask Lane.live

/-- The lanes a whole write is made by: live and not away (R94). -/
def Strand.wholeMask (st : Strand) : Word := st.laneMask (fun l => l.live && l.st != .away)

/-! ## Registers -/

/-- Whether a context holds 64-bit registers (R25). -/
def Ctx.wide : Ctx → Bool
  | .D | .S => true
  | _ => false

/-- The bit of a context in `OpRow.ctx`. -/
def Ctx.bit : Ctx → Nat
  | .L => 0 | .D => 1 | .S => 2 | .F => 3

/-- What lane k reads from a register (R93). -/
def VReg.read (r : VReg) (k : Nat) : Word :=
  match r with
  | .u v => v
  | .a b s => b + BitVec.ofNat 32 k * s
  | .g vs => vs.getD k 0

/-- Whether a register is in general form. -/
def VReg.isG : VReg → Bool
  | .g _ => true
  | _ => false

/-- The tag as a number: 0 U, 1 A, 2 G (R118). -/
def VReg.tag : VReg → Nat
  | .u _ => 0 | .a _ _ => 1 | .g _ => 2

/-- Vector register n of a warp. -/
def Strand.vreg (st : Strand) (n : Nat) : VReg := st.vregs.getD n (.u 0)

/-- Scalar register n. -/
def Strand.sreg (st : Strand) (n : Nat) : W64 := st.sregs.getD n 0

/-- The 32-bit value of register n in lane k; a lane never launched reads 0 (R57). -/
def Strand.reg32 (st : Strand) (k n : Nat) : Word :=
  match st.ctx with
  | .L => if (st.lane k).st = .never then 0 else (st.vreg n).read k
  | _ => (st.sreg n).setWidth 32

/-- The window entry N back; N from 1 (R66). -/
def Strand.win (st : Strand) (n : Nat) : WinEnt :=
  match st.run with
  | some r => r.win.getD (n - 1) ⟨.u 0, 0, none⟩
  | none => ⟨.u 0, 0, none⟩

/-- The 32-bit source a field names in lane k, a window name included (R22). -/
def Strand.src (st : Strand) (k : Nat) (f : BitVec 6) : Word :=
  if f.toNat < 56 then st.reg32 k f.toNat
  else match st.ctx with
    | .L => (st.win (f.toNat - 55)).v.read k
    | _ => (st.win (f.toNat - 55)).s.setWidth 32

/-- The shape a source field reads with (R93, R96). -/
def Strand.srcShape (st : Strand) (f : BitVec 6) : VReg :=
  if f.toNat < 56 then st.vreg f.toNat else (st.win (f.toNat - 55)).v

/-- The 64-bit value of a pair field in lane k (R24, R25). -/
def Strand.pair (st : Strand) (k n : Nat) : W64 :=
  if st.ctx.wide then st.sreg n else st.reg32 k (n + 1) ++ st.reg32 k n

/-- The 128-bit value of a quad field in lane k (R24, R25). -/
def Strand.quad (st : Strand) (k n : Nat) : W128 :=
  if st.ctx.wide then st.sreg (n + 1) ++ st.sreg n else st.pair k (n + 2) ++ st.pair k n

/-- Whether both registers of a pair are tagged U (R95, R202). -/
def Strand.pairU (st : Strand) (n : Nat) : Bool := (st.vreg n).tag = 0 && (st.vreg (n + 1)).tag = 0

/-- A register with the lanes of a mask overwritten, in general form (R94). -/
def VReg.merge (r : VReg) (m : Word) (vals : Nat → Word) : VReg :=
  .g ((List.range 32).map (fun k => if inMask m k then vals k else r.read k))

/-- Writes register n of the lanes in `m`. In lane code a whole write takes the form `whole`, when one is
given, and any other write leaves the register general (R94); in a scalar context the value of lane 0 is
written zero-extended (R25), and a forager's register becomes readable (R263). -/
def Strand.write32 (st : Strand) (m : Word) (n : Nat) (vals : Nat → Word) (whole : Option VReg) : Strand :=
  if m = 0 then st else
  match st.ctx with
  | .L =>
    let r := match whole with
      | some w => if m = st.wholeMask then w else (st.vreg n).merge m vals
      | none => (st.vreg n).merge m vals
    { st with vregs := st.vregs.set n r }
  | _ =>
    { st with
      sregs := st.sregs.set n ((vals 0).setWidth 64)
      fg := st.fg.map (fun g => { g with written := g.written ||| (1#56 <<< n) }) }

/-- Writes the 64-bit value of a pair field (R24, R25): both registers U when `whole` is given and the
write is whole, else both general. -/
def Strand.write64 (st : Strand) (m : Word) (n : Nat) (vals : Nat → W64) (whole : Option W64) : Strand :=
  if m = 0 then st else
  if st.ctx.wide then { st with sregs := st.sregs.set n (vals 0) }
  else
    let st := st.write32 m n (fun k => (vals k).setWidth 32) (whole.map (fun (v : W64) => .u (v.setWidth 32)))
    st.write32 m (n + 1) (fun k => (vals k >>> (32 : Nat)).setWidth 32) (whole.map (fun (v : W64) => .u ((v >>> (32 : Nat)).setWidth 32)))

/-- Register n of the lanes in `m` as a landing result leaves it: in the form its instruction settled at issue,
U when `u` is given, else general (R101). -/
def Strand.landed32 (st : Strand) (m : Word) (n : Nat) (vals : Nat → Word) (u : Option Word) : Strand :=
  match st.ctx, u with
  | .L, some v => if m = 0 then st else { st with vregs := st.vregs.set n (.u v) }
  | _, _ => st.write32 m n vals none

/-- The pair of a landing result (R24, R25, R101). -/
def Strand.landed64 (st : Strand) (m : Word) (n : Nat) (vals : Nat → W64) (u : Option W64) : Strand :=
  if st.ctx.wide then st.write64 m n vals none
  else (st.landed32 m n (fun k => (vals k).setWidth 32) (u.map (fun (v : W64) => v.setWidth 32))).landed32 m (n + 1)
    (fun k => (vals k >>> (32 : Nat)).setWidth 32) (u.map (fun (v : W64) => (v >>> (32 : Nat)).setWidth 32))

/-- The quad of a landing result (R24, R25, R101). -/
def Strand.landed128 (st : Strand) (m : Word) (n : Nat) (vals : Nat → W128) (u : Option W128) : Strand :=
  (st.landed64 m n (fun k => (vals k).setWidth 64) (u.map (fun (v : W128) => v.setWidth 64))).landed64 m (n + if st.ctx.wide then 1 else 2)
    (fun k => (vals k >>> (64 : Nat)).setWidth 64) (u.map (fun (v : W128) => (v >>> (64 : Nat)).setWidth 64))

/-- Writes the 128-bit value of a quad field (R24, R25). -/
def Strand.write128 (st : Strand) (m : Word) (n : Nat) (vals : Nat → W128) (whole : Option W128) : Strand :=
  let st := st.write64 m n (fun k => (vals k).setWidth 64) (whole.map (fun (v : W128) => v.setWidth 64))
  st.write64 m (n + if st.ctx.wide then 1 else 2) (fun k => (vals k >>> (64 : Nat)).setWidth 64)
    (whole.map (fun (v : W128) => (v >>> (64 : Nat)).setWidth 64))

/-! ## Predicates and guards -/

/-- Predicate q of lane k; 7 is `pt` (R23). -/
def Strand.pred (st : Strand) (k q : Nat) : Bool := q == 7 || (st.lane k).preds.getLsbD q

/-- The predicate a 4-bit guard or selector names (R26). -/
def Strand.guardTrue (st : Strand) (k : Nat) (x : BitVec 4) : Bool :=
  (st.pred k (x.toNat % 8)) != decide (8 ≤ x.toNat)

/-- The lanes of a mask whose guard is true. -/
def Strand.guarded (st : Strand) (m : Word) (x : BitVec 4) : Word :=
  maskOf (fun k => inMask m k && st.guardTrue k x)

/-- Writes predicate q of the lanes in `m`. -/
def Strand.writePred (st : Strand) (m : Word) (q : Nat) (vals : Nat → Bool) : Strand :=
  st.mapLanes m (fun k l =>
    { l with preds := if vals k then l.preds ||| (1#7 <<< q) else l.preds &&& ~~~(1#7 <<< q) })

/-! ## The registers a field names -/

/-- How many consecutive registers a field names, and the multiple its number must be of: in lane and
forager code (R24, R287) and in lead and stack-core code (R25). -/
def Opr.shape (k : Opr) (wide : Bool) (f : Rrr) (n : Nat) : Nat × Nat :=
  match k with
  | .no => (0, 1)
  | .src | .reg => (1, 1)
  | .pair => if wide then (1, 1) else (2, 2)
  | .quad => if wide then (2, 2) else (4, 4)
  | .bySize | .redSize => if f.b.toNat = 3 && !wide then (2, 2) else (1, 1)
  | .casSize =>
    if f.b.toNat = 3 then (if wide then (2, 2) else (4, 4)) else (if wide then (1, 1) else (2, 2))
  | .carried => (f.b.toNat % 8 + 1, 1)
  | .trailReg => if n = 56 then (0, 1) else (1, 1)
  | .voteDst => if f.x.toNat % 8 < 3 then (0, 1) else (1, 1)
  | .voteMask => if 8 ≤ f.x.toNat then (1, 1) else (0, 1)
  | .tileA => if f.x.toNat % 2 = 1 && !wide then (8, 8) else if wide then (2, 2) else (4, 4)
  | .tileB => if f.x.toNat / 2 % 2 = 1 && !wide then (8, 8) else if wide then (2, 2) else (4, 4)
  | .spillD => if f.x.toNat = 2 then (0, 1) else (1, 1)
  | .spillA => if f.x.toNat = 2 then (1, 1) else (0, 1)
  | .statD => if f.x.toNat = 1 then (0, 1) else (1, 1)
  | .statA => if f.x.toNat = 1 then (1, 1) else (0, 1)
  | .grpRank => if f.x.toNat = 4 then (1, 1) else (0, 1)

/-- The registers a field names, window names excepted. -/
def Opr.regs (k : Opr) (wide : Bool) (f : Rrr) (n : Nat) : List Nat :=
  if 56 ≤ n then [] else (List.range (k.shape wide f n).1).map (n + ·)

/-- The alignment of R24 and R25, and in lane and forager code the VREGS check of R92. -/
def Opr.regOk (k : Opr) (wide : Bool) (vregs : Nat) (f : Rrr) (n : Nat) : Bool :=
  let (c, al) := k.shape wide f n
  n % al == 0 && (56 ≤ n || decide (n + c ≤ 56)) && (wide || (k.regs wide f n).all (· < vregs))

/-- The registers a row's fields read or write. `trail` names registers and does neither (R85). -/
def OpRow.regs (r : OpRow) (wide : Bool) (f : Rrr) : List Nat :=
  if r.op == 0xB3 then [] else
  r.kd.regs wide f f.d.toNat ++ r.ka.regs wide f f.a.toNat ++ r.kb.regs wide f f.b.toNat

/-- The context-dependent register checks of step 2 of R40 (R24, R25, R92). The fields of an opcode that has no lane
or forager form name `s` registers everywhere. -/
def OpRow.regsOk (r : OpRow) (wide : Bool) (vregs : Nat) (f : Rrr) : Bool :=
  let wide := wide || !(bit r.ctx 0 || bit r.ctx 3)
  r.kd.regOk wide vregs f f.d.toNat && r.ka.regOk wide vregs f f.a.toNat && r.kb.regOk wide vregs f f.b.toNat

end Sys2Proof.Machine
end

