-- ==== Sys2Proof/Machine/Ops.lean ====
section
/-! DEFINITION. The named operations every family shares: lookups over the state, fault records and taking
a trap, and the parts of issuing one instruction (R40, R60 to R66). -/
namespace Sys2Proof.Machine

/-! ## Lookups -/

def Die.reset : Die := { tlb := [], wcache := [], misses := [], walkFn := 0, ats := [], queue := [], engines := [], used := [], halvings := 0, cycleBase := 0 }
def Core.reset : Core := ⟨none, [], none, [], [], [], 0, false, 20⟩
def Chan.reset : Chan := ⟨0, false, [], false, false, 0⟩
def Gran.reset : Gran := ⟨none, false, false, false, false⟩
def Bank.reset : Bank :=
  ⟨List.replicate 16 (List.replicate 16 0), List.replicate 4 (List.replicate 16 0), List.replicate 256 0,
   List.replicate 256 0, 0, []⟩
def Lcr.zero : Lcr := ⟨0, 0, 0, List.replicate 16 0⟩

def State.die (s : State) (d : Nat) : Die := tgetD s.dies d Die.reset
def State.core (s : State) (c : Nat) : Core := tgetD s.cores c Core.reset
def State.func (s : State) (f : Nat) : Func := tgetD s.funcs f Func.reset
def State.slice (s : State) (n : Nat) : Slice := tgetD s.slices n Slice.absent
def State.granule (s : State) (g : Nat) : Gran := tgetD s.gran g Gran.reset
def State.chan (s : State) (c : Nat) : Chan := tgetD s.chans c Chan.reset
def State.bank (s : State) (c b : Nat) : Bank := tgetD s.banks (16 * c + b) Bank.reset
def State.setDie (s : State) (d : Nat) (f : Die → Die) : State := { s with dies := tset s.dies d (f (s.die d)) }
def State.setCore (s : State) (c : Nat) (f : Core → Core) : State := { s with cores := tset s.cores c (f (s.core c)) }
def State.setFunc (s : State) (n : Nat) (f : Func → Func) : State := { s with funcs := tset s.funcs n (f (s.func n)) }
def State.setSlice (s : State) (n : Nat) (f : Slice → Slice) : State := { s with slices := tset s.slices n (f (s.slice n)) }
def State.setGran (s : State) (g : Nat) (f : Gran → Gran) : State := { s with gran := tset s.gran g (f (s.granule g)) }
def State.setChan (s : State) (c : Nat) (f : Chan → Chan) : State := { s with chans := tset s.chans c (f (s.chan c)) }
def State.setBank (s : State) (c b : Nat) (f : Bank → Bank) : State :=
  { s with banks := tset s.banks (16 * c + b) (f (s.bank c b)) }
def State.setMg (s : State) (f : Mgmt → Mgmt) : State := { s with mg := f s.mg }

def State.strand (s : State) (i : Nat) : Option Strand := tget s.strands i
def State.putStrand (s : State) (i : Nat) (st : Strand) : State := { s with strands := tset s.strands i st }
def State.updStrand (s : State) (i : Nat) (f : Strand → Strand) : State :=
  match tget s.strands i with
  | some st => { s with strands := tset s.strands i (f st) }
  | none => s
def State.cx (s : State) (i : Nat) : Option Cx := tget s.cxs i
def State.updCx (s : State) (i : Nat) (f : Cx → Cx) : State :=
  match tget s.cxs i with
  | some c => { s with cxs := tset s.cxs i (f c) }
  | none => s
def State.updNode (s : State) (i : Nat) (f : Node → Node) : State :=
  match tget s.nodes i with
  | some n => { s with nodes := tset s.nodes i (f n) }
  | none => s
def State.send (s : State) (m : OutMsg) : State := { s with out := s.out ++ [m] }

/-- The slice that owns a channel or a core; 65 is nobody (R365), and 66 while it is scrubbed (R384). -/
def State.chanSlice (s : State) (c : Nat) : Nat := tgetD s.mg.chanOwner c 0
def State.coreSlice (s : State) (c : Nat) : Nat := tgetD s.mg.coreOwner c 0

/-- Whether a REMCH (3) or REMCORE (4) in progress refuses new accesses to its target (R371). -/
def State.closing (s : State) (op t : Nat) : Bool := s.mg.slcPhase && s.mg.slcOp == op && bits64 s.mg.slcCmd 9 0 == t

/-- Whether a new access of function f may go to a channel or a core (R183, R189, R371). -/
def State.chanOpen (s : State) (f c : Nat) : Bool := s.chanSlice c == f && !s.closing 3 c
def State.coreOpen (s : State) (f c : Nat) : Bool := s.coreSlice c == f && !s.closing 4 c

/-- Whether a stack answers function f on a channel: its own slice's, or for the PF one of no slice (R183). -/
def State.chanServes (s : State) (f c : Nat) : Bool := s.chanSlice c == f || (f == 0 && s.chanSlice c == 65)

/-- What telemetry schema 3 counts (R421). -/
inductive Count where
  | corrected | uncorrectable | poisoned | poisonCommand | retirement | pageLost | refusedPacket | refusedMmio | machineStop
  deriving DecidableEq, Repr

/-- The place of a kind of count in schema 3. -/
def Count.ix : Count → Nat
  | .corrected => 0
  | .uncorrectable => 1
  | .poisoned => 2
  | .poisonCommand => 3
  | .retirement => 4
  | .pageLost => 5
  | .refusedPacket => 6
  | .refusedMmio => 7
  | .machineStop => 8

/-- The counters of a kind (R421): a slice's over the module's life and since cold, and a unit's. -/
def sliceCount (slice : Nat) (k : Count) : Nat := 2 ^ 20 + 16 * slice + k.ix
def coldCount (slice : Nat) (k : Count) : Nat := 2 ^ 22 + 16 * slice + k.ix
def unitCount (unit : Nat) (k : Count) : Nat := 2 ^ 21 + 16 * unit + k.ix

/-- Counts something for a slice. -/
def State.countSlice (s : State) (slice : Nat) (k : Count) : State :=
  s.setMg (fun m => { m with counters := tcount (tcount m.counters (sliceCount slice k)) (coldCount slice k) })

/-- Counts an error for the slice it is contained to and for its unit (R379, R380): a core or stack core by its unit
number, die d as 2048 + d, the base die of stack t as 4096 + t, bank b of channel c as 8192 + 16c + b. -/
def State.countError (s : State) (slice unit : Nat) (k : Count := .uncorrectable) : State :=
  (s.countSlice slice k).setMg (fun m => { m with counters := tcount m.counters (unitCount unit k) })

/-- Counts a command that ends POISON (4) (R421). -/
def State.countPoison (s : State) (slice unit st : Nat) : State := if st == 4 then s.countError slice unit .poisonCommand else s

/-- The header of a strand's context. -/
def State.hdrOf (s : State) (st : Strand) : Header := ((s.cx st.cx).map Cx.hdr).getD {}

/-- The function a strand acts for. -/
def State.fnOf (s : State) (st : Strand) : Nat := ((s.cx st.cx).map Cx.fn).getD 0

/-- The core (16 die + core) or stack core (1024 + 16 stack + core) that runs a strand. -/
def State.unitOf (s : State) (st : Strand) : Nat :=
  match st.fg with
  | some g => g.unit.getD (((s.cx st.cx).map Cx.core).getD 0)
  | none => ((s.cx st.cx).map Cx.core).getD 0

/-- The core that holds a strand's context: for a forager its home core. -/
def State.homeUnit (s : State) (st : Strand) : Nat := ((s.cx st.cx).map Cx.core).getD 0

/-- The die number of a core or stack core (R2). -/
def dieOfUnit (u : Nat) : Nat := if u < 1024 then u / 16 else 64 + (u - 1024) / 16

/-- A die's cycle counter (R311). -/
def State.cycle (s : State) (d : Nat) : Nat := s.clock - (s.die d).cycleBase

/-- A state that keeps of another what translations have asked for and cached there: an operation that has to wait for a
translation leaves this behind, and is done again later. -/
def State.takeWalks (s t : State) : State :=
  { s with out := t.out, dies := t.dies.map (fun (e : Nat × Die) =>
      (e.1, { e.2 with queue := (s.die e.1).queue, engines := (s.die e.1).engines, used := (s.die e.1).used })) }

/-! ## What a reset holds back (R413) -/

/-- Whether a place in memory is in a stack, die or core that is being reset: accesses to it wait. -/
def State.homeReset (s : State) (loc : Nat) : Bool :=
  match s.mg.rstRun, s.mg.rstPend with
  | some (l, _, t), some _ =>
    let sram (n : Nat) : Bool := decide (2 ^ 40 ≤ loc) && decide (loc < 2 ^ 41) && (loc - 2 ^ 40) / 2 ^ 22 / n == t
    (l == 1 && sram 1) || (l == 2 && decide (loc < 2 ^ 40) && loc / 2 ^ 36 == t) || (l == 3 && sram 16)
  | _, _ => false

/-- Whether an access waits for its home: a reset, or a granule that is being remapped (R381, R413). -/
def State.homeHeld (s : State) (loc : Nat) : Bool := s.homeReset loc || (decide (loc < 2 ^ 40) && (s.granule (loc / 65536)).held)

/-- Whether a core (or 2048 + channel) admits only the contexts an engine reset saved there (R413). -/
def State.keptFor (s : State) (unit own : Nat) : Bool :=
  s.mg.rstSaved.any (fun e => e.2 == unit && ((s.cx e.1).any (fun c => c.savedForm.isSome && !c.resident))) && !s.mg.rstSaved.contains (own, unit)

/-- Whether a reset in progress keeps work off a core. -/
def State.coreReset (s : State) (core : Nat) : Bool :=
  match s.mg.rstRun with
  | some (0, k, t) => (k == 2 || k == 4) && t == core
  | some (1, _, t) => t == core
  | some (3, _, t) => t == core / 16
  | _ => false

/-- Whether a unit that hosts foragers is being reset: continuations wait for it. -/
def State.unitReset (s : State) (u : Nat) : Bool :=
  match s.mg.rstRun with
  | some (1, _, t) => t == u
  | some (2, _, t) => decide (1024 ≤ u) && (u - 1024) / 16 == t
  | some (3, _, t) => decide (u < 1024) && u / 16 == t
  | _ => false

/-- Whether the guests of a unit are being recalled: they start no further run (R278). -/
def State.recalling (s : State) (u : Nat) : Bool := s.unitReset u || (decide (u < 1024) && s.closing 4 u)

/-- Whether a reset in progress keeps work off a channel. -/
def State.chanReset (s : State) (chan : Nat) : Bool :=
  match s.mg.rstRun with
  | some (0, k, t) => k == 3 && t == chan
  | some (2, _, t) => t == chan / 64
  | _ => false

/-! ## Fault records and traps -/

/-- The record of a fault of lane k (R319), without its resume address. -/
def State.mkFault (s : State) (st : Strand) (k : Nat) (code : Nat) (pc : Va) (addr : W64) (data : W128)
    (detail : Nat) (recov : Bool) : FaultRec :=
  let c := s.cx st.cx
  let u := s.homeUnit st
  let host := s.unitOf st
  { code := code
    recov := recov
    nested := (st.lane k).intrap || st.routine != .none
    ctx := st.ctx.bit
    die := dieOfUnit u
    unit := if u < 1024 then 0 else 1
    unitno := u % 16
    slice := (c.map Cx.slice).getD 0
    lane := match st.fg with | some g => g.lane | none => k
    wid := st.wid
    hdie := if st.fg.isSome then dieOfUnit host else 0
    node := (Config.nodeHandle ((c.map Cx.node).getD 0)).toNat
    wg := (c.map Cx.wg).getD 0
    hop := (st.fg.map Forager.hop).getD 0
    hcore := if st.fg.isSome then host % 16 else 0
    pc := pc
    resume := pc
    addr := addr
    data := data
    detail := BitVec.ofNat 32 detail
    cycle := BitVec.ofNat 32 (s.cycle (dieOfUnit u)) }

/-- Takes the precise trap `code` in the lanes of `m` of strand i: each is parked with its record, whose
RESUME is the address after the instruction, and leaves the run (R69). -/
def State.trapLanes (s : State) (i : Nat) (m : Word) (code : Nat) (pc : Va) (len : Nat) (detail : Nat)
    (addr : Nat → W64 := fun _ => 0) : State :=
  s.updStrand i fun st =>
    let st' := st.mapLanes m (fun k l =>
      { l with
        st := .fault
        flts := l.flts ++
          [{ s.mkFault st k code pc (addr k) 0 detail false with resume := pc + BitVec.ofNat 48 len }] })
    { st' with run := st'.run.map (fun r => { r with mask := r.mask &&& ~~~m }) }

/-- Whether lane k parks with a record: the lane it names, and the others of its limb chain (R170). -/
def FaultRec.parks (r : FaultRec) (k : Nat) : Bool := r.lane == k || (r.chain != 0 && r.lane / r.chain == k / r.chain)

/-! ## Issue -/

/-- The decoded form of an instruction at issue: its opcode's row, its fields as RRR fields, whether the
context-free checks of step 2 of R40 pass, its length, its S bit, and the registers it uses without naming
them (the link). -/
structure Hd where
  row : OpRow
  f : Rrr
  ok : Bool
  len : Nat
  s : Bool
  more : List Nat := []

/-- A row that no opcode has. -/
def OpRow.none : OpRow := ⟨256, 0, 1, 0, false, false, .no, .no, .no⟩

/-- The issue form of a 32-bit word of opcode `op`. -/
def hdOf (op w : Nat) : Hd :=
  match opRow op with
  | some r => ⟨r, rrrOfWord w, encOk r w, 4, bit w 1, []⟩
  | .none => ⟨OpRow.none, rrrOfWord w, false, 4, bit w 1, []⟩

/-- The issue form of a 16-bit instruction: its 32-bit equivalent, 2 bytes long (R33). -/
def hdShort (op : Nat) (f : Rrr) : Hd := { hdOf op (rrrWord op f) with len := 2, ok := true }

/-- What is known when an instruction performs: the strand before it, its group, the lanes whose guard is
true, and its address. -/
structure Iss where
  i : Nat
  st : Strand
  m : Word
  g : Word
  pc : Va
  h : Hd

/-- What leaves the window entry of an instruction (R66). -/
inductive Dst where
  | nothing
  | reg (n : Nat)
  | pend (n id : Nat)

/-- What performing an instruction gives: the state, its window entry, the next addresses of lanes that do
not fall through, and whether the instruction ends its run of itself (R64). -/
structure Out where
  s : State
  dst : Dst := .nothing
  pcs : List (Nat × Va) := []
  ends : Bool := false

/-- An instruction performs, or stalls its group before it performs; one that waits for the host keeps what it has
asked for. -/
inductive Act where
  | done (o : Out)
  | stall (k : Stall)
  | hold (s : State) (k : Stall)

/-- Whether a warp is limb-bound (R159). -/
def Strand.bound (st : Strand) : Bool := st.lcr.log2n != 0

/-- The lanes that can form a group (R60). A bound warp whose lanes wait on a fault stays parked whole, but
for lanes that run the trap routine (R161); an `lfree` there lets the others go on (notes/assumptions/61.md). -/
def Strand.readyMask (st : Strand) : Word :=
  let held := st.bound && st.lanes.any (fun l => l.st == .fault || (l.intrap && l.live))
  st.laneMask (fun l => l.st == .ready && l.act.isNone && (!held || l.intrap))

/-- Whether lane a's path goes before lane b's when a new run starts (R62). -/
def Strand.pathBefore (st : Strand) (a b : Nat) : Bool :=
  (st.lane a).lastRun < (st.lane b).lastRun ||
  ((st.lane a).lastRun == (st.lane b).lastRun && (st.lane a).pc.toNat < (st.lane b).pc.toNat)

/-- The group that issues next: the run's group, or every ready lane at the address of the path that has
waited longest (R60 to R62). -/
def Strand.group (st : Strand) : Word :=
  match st.run with
  | some r => r.mask
  | none =>
    let m := st.readyMask
    if m = 0 then 0 else
    let k := (lanesOf m).foldl (fun a b => if st.pathBefore b a then b else a) (lowest m)
    maskOf (fun j => inMask m j && (st.lane j).pc = (st.lane k).pc)

/-- Whether a stall is one at which a forced save stops a run before its instruction (R328). -/
def Stall.stops : Stall → Bool
  | .fence | .entry | .fetch => false
  | _ => true

/-- The lanes released at a safe point to be taken. -/
def Strand.savingMask (st : Strand) : Word := st.laneMask (fun l => match l.act with | some (.toSave _) => true | _ => false)

/-- Whether a warp of a context has stopped for a save: at its safe point, parked, or where a forced save stops
it (R327, R328). -/
def Strand.stopped (forced : Bool) (st : Strand) : Bool :=
  st.liveMask == 0 || st.saveForm.isSome ||
  (forced && st.routine == .none && !st.runEnd && st.savingMask == 0 && (st.run.isNone || st.stall.any Stall.stops))

/-- Whether a strand may not start a new run: a forced stop, or a lead thread whose warps have all stopped
for a save (R328). -/
def State.heldBack (s : State) (c : Cx) (st : Strand) : Bool :=
  st.run.isNone && st.routine == .none &&
  (c.forced || (st.ctx == .D && c.preempt.isSome &&
    c.strands.all (fun j => match s.strand j with | some w => w.ctx != .L || w.stopped c.forced | none => true)))

/-- Whether every thread of a context has stopped for its save (R327, R328). -/
def State.allStopped (s : State) (c : Cx) : Bool :=
  c.preempt.isSome && c.saveSlot.isSome &&
  c.strands.all (fun j => match s.strand j with
    | some w => if w.ctx == .L then w.stopped c.forced
        else w.liveMask == 0 || (!w.runEnd && (w.run.isNone || w.stall.any Stall.stops))
    | none => true)

/-- The foragers in the slot warp of a forager: the slots of one unit, 32 to a slot warp (R268). -/
def State.slotWarp (s : State) (g : Forager) : List (Nat × Strand) :=
  s.strands.filter (fun e => match e.2.fg with
    | some h => h.unit == g.unit && g.slot.isSome && (h.slot.map (· / 32)) == (g.slot.map (· / 32)) && !h.queued
    | none => false)

/-- Whether it is a forager's turn in its slot warp: a warp has one run at a time, and the slots of its group issue
each instruction together (R60, R67, R268). -/
def State.slotTurn (s : State) (i : Nat) (st : Strand) (g : Forager) : Bool :=
  (s.slotWarp g).all (fun e => e.1 == i ||
    (if st.run.isSome then
      e.2.run.isNone || g.grp == 0 || (e.2.fg.map Forager.grp) != some g.grp || decide ((st.run.map Run.n).getD 0 ≤ (e.2.run.map Run.n).getD 0)
    else e.2.run.isNone && !e.2.runEnd))

/-- Whether a strand may issue: no stall, not parked at a run end, not stopped for a save, its context
resident and started on a unit that runs it, its function's work not held (R67, R327, R328, R391). -/
def State.canIssue (s : State) (i : Nat) (st : Strand) : Bool :=
  st.stall.isNone && !st.runEnd && st.saveForm.isNone && st.group != 0 &&
  (match s.cx st.cx with
   | some c => (c.resident || st.fg.isSome) && c.started && ((s.func c.fn).ifState == 0 || (s.func c.fn).ifState == 2) &&
     !s.heldBack c st
   | none => false) &&
  (match st.fg with
   | some g => g.unit.isSome && !g.queued && g.dest.isNone && s.slotTurn i st g &&
     (st.run.isSome || !(g.unit.any (fun u => u != s.homeUnit st && s.recalling u)))
   | none => true) && i != 0 && !s.mg.tripped

/-- How many instructions the run has performed (R64). -/
def Strand.runLen (st : Strand) : Nat := (st.run.map Run.n).getD 0
def Strand.runLong (st : Strand) : Nat := (st.run.map Run.nl).getD 0

/-- Whether a field reads a window entry (R22). -/
def Opr.readsWin (k : Opr) (f : Rrr) (n : Nat) : Bool :=
  56 ≤ n && (match k with
    | .src => true
    | .redSize => f.b.toNat == 2
    | .voteMask => 8 ≤ f.x.toNat
    | .spillA => f.x.toNat == 2
    | .statA => f.x.toNat == 1
    | .grpRank => f.x.toNat == 4
    | _ => false)

/-- The window entries an instruction reads, as N of `wN`. -/
def OpRow.winReads (r : OpRow) (f : Rrr) : List Nat :=
  (if r.kd.readsWin f f.d.toNat then [f.d.toNat - 55] else []) ++
  (if r.ka.readsWin f f.a.toNat then [f.a.toNat - 55] else []) ++
  (if r.kb.readsWin f f.b.toNat then [f.b.toNat - 55] else [])

/-- Whether the d field's registers are read (R106, R108, R110, R141, R143, R201 to R206, R264). -/
def OpRow.dRead (r : OpRow) (f : Rrr) : Bool :=
  match r.op with
  | 0x06 | 0x17 | 0x1C | 0x43 => true
  | 0x44 | 0x51 => f.x.toNat % 4 == 3
  | 0x52 | 0x79 => true
  | o => (0x87 ≤ o && o ≤ 0x8B) || o == 0x8E || o == 0x8F || (0x90 ≤ o && o ≤ 0x9B) || o == 0xA0 || o == 0xA1

/-- The registers an instruction reads. -/
def OpRow.reads (r : OpRow) (wide : Bool) (f : Rrr) : List Nat :=
  (if r.dRead f then r.kd.regs wide f f.d.toNat else []) ++ r.ka.regs wide f f.a.toNat ++ r.kb.regs wide f f.b.toNat

/-- The decode trap of an instruction in a strand, in the order of R40. -/
def State.decodeTrap (s : State) (st : Strand) (h : Hd) : Option Nat :=
  if h.row.op == 256 then some 0x01
  else if !h.ok || !h.row.regsOk st.ctx.wide (s.hdrOf st).vregs h.f then some 0x02
  else if !bit h.row.ctx st.ctx.bit then some 0x03
  else none

/-- Whether an instruction is a departure that sends the continuation j (R262). -/
def Pend.sends (p : Pend) (j : Nat) : Bool := (p.op == 0xA0 || p.op == 0xA1) && p.caps.any (fun c => c.data.toNat == j)

/-- Whether registers overlap the destination of a pending instruction. -/
def Pend.covers (p : Pend) (rs : List Nat) : Bool := rs.any (fun r => p.dst ≤ r && r < p.dst + p.cnt)

/-- The general blocks a warp holds: one for each register in general form, and one for each register that
a pending class-L result, a parked `wq.pop` included, will leave so (R101). -/
def Strand.blocks (st : Strand) : Nat :=
  if st.liveMask = 0 then 0 else
  let popped (l : Lane) (n : Nat) : Bool := match l.act with | some (.wpop d false) => n == d || n == d + 1 | _ => false
  ((List.range 56).filter (fun n => (st.vreg n).isG || st.lanes.any (popped · n) ||
    st.pends.any (fun p => !(p.whole && p.tagU) && p.covers [n]))).length

/-- The shared blocks in use and the blocks reserved on a core (R100). -/
def State.poolUse (s : State) (core : Nat) : Nat :=
  s.strands.foldl (fun t p =>
    match p.2.ctx, s.cx p.2.cx with
    | .L, some c => if c.resident && c.core = core then t + max c.hdr.gmax p.2.blocks else t
    | _, _ => t) 0

/-- Whether a forced save has stopped a strand before the instruction it is stalled at: it waits for its restore
(R328). A save or restore routine and a forager run on (R275, R327). -/
def State.stoppedForSave (s : State) (st : Strand) : Bool :=
  st.fg.isNone && st.routine == .none && ((s.cx st.cx).map Cx.forced).getD false

/-- A strand's place in the queue of those that have stalled for a thing before their instruction. -/
def Strand.place (st : Strand) (k : Stall) : Option Nat := (st.places.find? (·.1 == k)).map (·.2)

/-- Whether a group that has stalled for another thing before stalls so on its way to the instruction: it keeps its place
in the queue it stands in, and its turn there. -/
def Stall.passing : Stall → Bool
  | .fetch | .entry | .block => true
  | _ => false

/-- Whether another strand of the neighbourhood stalled for the same thing before this one and has not performed
since (R102, R139, R186, R231, R260, R289, R343: stalled groups go on in the order in which they stalled); one that now
stalls for something else than its fetch or a block holds nobody back (notes/assumptions/61.md). One that a forced save
has stopped waits for its restore (R328). -/
def State.queuesBehind (s : State) (i : Nat) (k : Stall) (near : Strand → Bool) : Bool :=
  let mine := (s.strand i).bind (·.place k)
  let first (e : Strand) : Bool := match e.place k with | some n => mine.all (decide <| n < ·) | none => false
  s.strands.any (fun e => e.1 != i && near e.2 && !s.stoppedForSave e.2 && first e.2 && e.2.stall.all (fun c => c == k || c.passing))

/-- Whether the write just made needs a shared block that is not free, or that a warp stalled earlier waits for
(R102). Of the blocks one write takes and frees the difference counts (notes/assumptions/61.md). -/
def State.lacksBlock (old new : State) (i : Nat) : Bool :=
  match old.strand i, new.strand i with
  | some a, some b =>
    a.ctx == .L && decide (max (new.hdrOf b).gmax a.blocks < b.blocks) &&
    (decide (4096 < new.poolUse (new.homeUnit b)) || old.queuesBehind i .block (fun t => old.homeUnit t == new.homeUnit b))
  | _, _ => false

/-- Lets the strand of a neighbourhood that stalled first for `k` try its instruction again; one that a forced save
has stopped waits for its restore (R328). -/
def State.unstall (s : State) (k : Stall) (near : Strand → Bool) : State :=
  let w := s.strands.filter (fun e => e.2.stall == some k && near e.2 && (k == .fence || !s.stoppedForSave e.2))
  match w with
  | [] => s
  | e :: es =>
    let at_ (e : Nat × Strand) : Nat := (e.2.place k).getD 0
    let first := es.foldl (fun a b => if at_ b < at_ a then b else a) e
    s.updStrand first.1 (fun st => { st with stall := none })

/-- Lets every strand of a neighbourhood stalled for `k` try its instruction again, where what one waits for is not what
another does; who waits longest still goes first (R280, R283). -/
def State.unstallAll (s : State) (k : Stall) (near : Strand → Bool) : State :=
  { s with strands := s.strands.map (fun (e : Nat × Strand) =>
      if e.2.stall == some k && near e.2 && !s.stoppedForSave e.2 then (e.1, { e.2 with stall := none }) else e) }

/-- Marks a strand stalled before its instruction performs; it keeps its place in every queue it stands in. -/
def State.setStall (s : State) (i : Nat) (k : Stall) : State :=
  let s := s.updStrand i (fun st =>
    { st with stall := some k, waits := some k, places := if (st.place k).isSome then st.places else st.places ++ [(k, s.nextId)], run := some (st.run.getD ⟨st.group, 0, 0, []⟩) })
  { s with nextId := s.nextId + 1 }

/-- The window entry an instruction leaves (R66); one that names no register leaves undefined values. -/
def State.winEntry (s : State) (st : Strand) (d : Dst) : WinEnt :=
  match d with
  | .reg n => ⟨st.vreg n, st.sreg n, none⟩
  | .pend n id => ⟨st.vreg n, st.sreg n, some id⟩
  | .nothing =>
    ⟨.g ((List.range 32).map (fun k => Config.freeWord (s.freeCtr + k))), Config.freeW64 s.freeCtr, none⟩

/-- Ends the run of a strand (R64): the window is discarded and the strand parks until its class-L
instructions have returned. -/
def State.markRunEnd (s : State) (i : Nat) : State :=
  s.updStrand i (fun st =>
    let m := ((st.run.map Run.mask).getD 0) ||| st.laneMask (fun l => l.act.isSome && l.st == .ready)
    let st := st.mapLanes m (fun _ l => { l with lastRun := s.clock })
    { st with run := none, runEnd := true, stall := none, waits := none, places := [], walked := [], readyAt := 0, fg := st.fg.map (fun g => { g with grp := 0 }) })

end Sys2Proof.Machine
end

