-- ==== Sys2Proof/Machine/Fabric.lean ====
section
/-! DEFINITION. Sending messages to other devices (R405): channels that HOLD stops, and long messages that wait for
their reservation. The four channels are 0 requests, 1 responses, 2 collectives, 3 launch and management. -/
namespace Sys2Proof.Machine

/-- The flits of a message of n bytes. -/
def flitsOf (n : Nat) : Nat := max 1 ((n + 31) / 32)

/-- The number of a message's channel at the port it leaves by. -/
def Msg.channel (x : Msg) : Nat := 4 * Config.portOf x.dev + x.vc

/-- Whether a message may enter the network: what is left of its channel's margin after HOLD suffices, and a message of
more than 8 flits has its reservation. -/
def Mgmt.linkOpen (m : Mgmt) (x : Msg) : Bool :=
  (match tget m.vcs x.channel with | some left => decide (x.flits ≤ left) | none => true) &&
  (decide (x.flits ≤ 8) || m.reserved.contains (Config.portOf x.dev))

/-- A message enters the network, and uses up its margin or its reservation. -/
def State.inject (s : State) (x : Msg) : State :=
  (s.setMg (fun m => { m with
    vcs := match tget m.vcs x.channel with | some left => tset m.vcs x.channel (left - x.flits) | none => m.vcs
    reserved := if 8 < x.flits then m.reserved.erase (Config.portOf x.dev) else m.reserved })).send x.body

/-- The messages that may enter the network enter it, oldest first; on one channel none passes another. -/
def State.linkDrain (s : State) : State :=
  let (t, left) := s.mg.linkQ.foldl (fun (a : State × List Msg) x =>
    if a.1.mg.linkOpen x && !a.2.any (fun y => y.channel == x.channel) then (a.1.inject x, a.2) else (a.1, a.2 ++ [x])) (s, [])
  t.setMg (fun m => { m with linkQ := left })

/-- Sends a message of n bytes to a device on a channel, for a collective node or for none. -/
def State.linkSend (s : State) (vc dev n : Nat) (body : OutMsg) (node : Option Nat := none) : State :=
  (s.setMg (fun m => { m with linkQ := m.linkQ ++ [{ vc := vc, dev := dev, flits := flitsOf n, node := node, body := body }] })).linkDrain

/-- Sends bytes to a device on a channel. -/
def State.peerSend (s : State) (vc dev : Nat) (bs : List Byte) (node : Option Nat := none) : State :=
  s.linkSend vc dev bs.length (.peer dev bs) node

/-- Whether a message of n bytes could leave now on the request channel to a device. -/
def State.linkFree (s : State) (dev n : Nat) : Bool :=
  let x : Msg := { vc := 0, dev := dev, flits := flitsOf n, node := none, body := .peer dev [] }
  s.mg.linkOpen x && !s.mg.linkQ.any (fun y => y.channel == x.channel)

end Sys2Proof.Machine
end

