-- ==== Sys2Proof/Machine/Num.lean ====
section
/-! DEFINITION. Number formats, rounding and exact sums (R122 to R133), the Zhevior block formats (R126 to
R129), and the arithmetic operations on codes. -/
namespace Sys2Proof.Machine

/-- A scalar floating format (R122): fraction width, exponent of the lowest bit of a subnormal, largest
finite magnitude code, infinity code where there is one, canonical NaN code, and total width. -/
structure Fmt where
  width : Nat
  mw : Nat
  emin : Int
  maxFin : Nat
  inf : Option Nat
  nan : Nat

def fp32 : Fmt := ⟨32, 23, -149, 0x7F7FFFFF, some 0x7F800000, 0x7FC00000⟩
def fp16 : Fmt := ⟨16, 10, -24, 0x7BFF, some 0x7C00, 0x7E00⟩
def bf16 : Fmt := ⟨16, 7, -133, 0x7F7F, some 0x7F80, 0x7FC0⟩
def e4m3 : Fmt := ⟨8, 3, -9, 0x7E, none, 0x7F⟩
def e5m2 : Fmt := ⟨8, 2, -16, 0x7B, some 0x7C, 0x7E⟩

/-- The 16-bit type of a type bit (R39). -/
def fmt16 (t : Bool) : Fmt := if t then bf16 else fp16
/-- The 8-bit type of a type bit (R39). -/
def fmt8 (q : Bool) : Fmt := if q then e5m2 else e4m3

/-- An exact value: NaN, an infinity, or (−1)^neg × m × 2^e. -/
inductive FpNum where
  | nan
  | inf (neg : Bool)
  | fin (neg : Bool) (m : Nat) (e : Int)
  deriving DecidableEq, Repr

/-- The value of a code (R123, R124). -/
def Fmt.val (F : Fmt) (c : Nat) : FpNum :=
  let neg := bit c (F.width - 1)
  let mag := c % 2 ^ (F.width - 1)
  if mag ≤ F.maxFin then
    let ex := mag / 2 ^ F.mw; let fr := mag % 2 ^ F.mw
    if ex = 0 then .fin neg fr F.emin else .fin neg (2 ^ F.mw + fr) (F.emin + ex - 1)
  else if F.inf = some mag then .inf neg else .nan

/-- Whether a rounding of magnitude goes up: quotient, remainder, divisor (R130). -/
def roundsUp (rm : Nat) (neg : Bool) (q r d : Nat) : Bool :=
  match rm with
  | 0 => decide (d < 2 * r) || (2 * r == d && q % 2 == 1)
  | 1 => false
  | 2 => r != 0 && !neg
  | _ => r != 0 && neg

/-- The magnitude code of m × 2^e rounded into a format's grid with no upper exponent limit (R130, R132);
`sticky` says that the true magnitude lies strictly between m and m + 1 units of 2^e. -/
def Fmt.roundMag (F : Fmt) (rm : Nat) (neg : Bool) (m : Nat) (e : Int) (sticky : Bool := false) : Nat :=
  let m := if sticky then 4 * m + 1 else 4 * m
  let e := e - 2
  if m = 0 then 0 else
  let p := max F.emin (Nat.log2 m + e - F.mw)
  if p ≤ e then m * 2 ^ (e - p).toNat + (p - F.emin).toNat * 2 ^ F.mw
  else
    let d := 2 ^ (p - e).toNat
    let q := m / d
    let q := if roundsUp rm neg q (m % d) d then q + 1 else q
    (p - F.emin).toNat * 2 ^ F.mw + q

/-- A magnitude code with a sign. -/
def Fmt.sign (F : Fmt) (neg : Bool) (mag : Nat) : Nat := if neg then 2 ^ (F.width - 1) + mag else mag

/-- RoundFmt (R131): the code of an exact result, with IEEE overflow. -/
def Fmt.round (F : Fmt) (rm : Nat) (x : FpNum) (sticky : Bool := false) : Nat :=
  match x with
  | .nan => F.nan
  | .inf neg => F.sign neg (F.inf.getD F.maxFin)
  | .fin neg m e =>
    let mag := F.roundMag rm neg m e sticky
    if mag ≤ F.maxFin then F.sign neg mag
    else if rm == 0 || (rm == 2 && !neg) || (rm == 3 && neg) then F.sign neg (F.inf.getD F.maxFin)
    else F.sign neg F.maxFin

/-- SatConvert (R132). -/
def Fmt.sat (F : Fmt) (rm : Nat) (x : FpNum) : Nat :=
  match x with
  | .nan => F.nan
  | .inf neg => F.sign neg F.maxFin
  | .fin neg m e => F.sign neg (min (F.roundMag rm neg m e) F.maxFin)

/-- SatConvertInt (R133): 32-bit integer code. -/
def satInt (signed : Bool) (rm : Nat) (x : FpNum) : Nat :=
  let clamp (v : Int) : Nat :=
    if signed then wrapTo 32 (max (-(2 ^ 31)) (min v (2 ^ 31 - 1))) else wrapTo 32 (max 0 (min v (2 ^ 32 - 1)))
  match x with
  | .nan => 0
  | .inf neg => clamp (if neg then -(2 ^ 40) else 2 ^ 40)
  | .fin neg m e =>
    let q : Nat :=
      if 0 ≤ e then m * 2 ^ (min e.toNat 64)
      else
        let d := 2 ^ (-e).toNat
        let q := m / d
        if roundsUp rm neg q (m % d) d then q + 1 else q
    clamp (if neg then -(q : Int) else q)

/-! ## Exact arithmetic -/

/-- Negation. -/
def FpNum.negate : FpNum → FpNum
  | .nan => .nan
  | .inf n => .inf !n
  | .fin n m e => .fin (!n) m e

/-- An exact product; 0 × Inf is NaN (R141). -/
def FpNum.mul (a b : FpNum) : FpNum :=
  match a, b with
  | .nan, _ => .nan
  | _, .nan => .nan
  | .inf n, .inf k => .inf (n != k)
  | .inf n, .fin k m _ => if m = 0 then .nan else .inf (n != k)
  | .fin n m _, .inf k => if m = 0 then .nan else .inf (n != k)
  | .fin n m e, .fin k p q => .fin (n != k) (m * p) (e + q)

/-- The signed units of a finite term at exponent `lo`. -/
def FpNum.units (lo : Int) : FpNum → Int
  | .fin n m e => (if n then -1 else 1) * ((m * 2 ^ (e - lo).toNat : Nat) : Int)
  | _ => 0

/-- The lowest exponent of finite terms. -/
def lowExp (ts : List FpNum) : Int :=
  ts.foldl (fun lo t => match t with | .fin _ _ e => min lo e | _ => lo) 400

/-- The exact sum of terms (R131, R135): NaN and infinities first; the sign of an exact zero follows the
terms when all are zeros of one sign, and is + (− under RD) otherwise. -/
def sumNum (rm : Nat) (ts : List FpNum) : FpNum :=
  if ts.any (· == .nan) then .nan
  else if ts.any (· == .inf false) then (if ts.any (· == .inf true) then .nan else .inf false)
  else if ts.any (· == .inf true) then .inf true
  else
    let lo := lowExp ts
    let t := (ts.map (FpNum.units lo)).foldl (· + ·) 0
    if t = 0 then
      let zero := ts.all (fun x => match x with | .fin _ m _ => m == 0 | _ => false)
      let neg := ts.all (fun x => match x with | .fin n _ _ => n | _ => false)
      let pos := ts.all (fun x => match x with | .fin n _ _ => !n | _ => false)
      if zero && neg && !ts.isEmpty then .fin true 0 lo
      else if zero && pos then .fin false 0 lo
      else .fin (rm == 3) 0 lo
    else .fin (decide (t < 0)) t.natAbs lo

/-- Orders two finite or infinite values (R142, R144); −0 and +0 are equal. -/
def FpNum.lt (a b : FpNum) : Bool :=
  match a, b with
  | .inf n, .inf k => n && !k
  | .inf n, .fin _ _ _ => n
  | .fin _ _ _, .inf k => !k
  | .fin n m e, .fin k p q =>
    let lo := min e q
    decide (FpNum.units lo (.fin n m e) < FpNum.units lo (.fin k p q))
  | _, _ => false

/-! ## Operations on codes -/

def Fmt.add (F : Fmt) (rm a b : Nat) : Nat := F.round rm (sumNum rm [F.val a, F.val b])
def Fmt.sub (F : Fmt) (rm a b : Nat) : Nat := F.round rm (sumNum rm [F.val a, (F.val b).negate])
def Fmt.mul (F : Fmt) (rm a b : Nat) : Nat := F.round rm ((F.val a).mul (F.val b))
def Fmt.fma (F : Fmt) (rm a b d : Nat) : Nat := F.round rm (sumNum rm [(F.val a).mul (F.val b), F.val d])

/-- add, sub, mul, fma of R39 by code. -/
def Fmt.arith (F : Fmt) (o rm a b d : Nat) : Nat :=
  match o with
  | 0 => F.add rm a b
  | 1 => F.sub rm a b
  | 2 => F.mul rm a b
  | _ => F.fma rm a b d

/-- An FP32 operation on words. -/
def w32 (n : Nat) : Word := BitVec.ofNat 32 n
def fadd32 (a b : Word) : Word := w32 (fp32.add 0 a.toNat b.toNat)
def fsub32 (a b : Word) : Word := w32 (fp32.sub 0 a.toNat b.toNat)
def fmul32 (a b : Word) : Word := w32 (fp32.mul 0 a.toNat b.toNat)
def ffma32 (a b d : Word) : Word := w32 (fp32.fma 0 a.toNat b.toNat d.toNat)

/-- Whether an FP32 code is NaN. -/
def isNan32 (a : Word) : Bool := decide (0x7F800000 < a.toNat % 2 ^ 31)

/-- A position of non-NaN FP32 codes in the order −Inf < … < −0 < +0 < … < +Inf (R142). -/
def order32 (a : Word) : Int := if bit a.toNat 31 then -(a.toNat % 2 ^ 31 : Int) - 1 else (a.toNat : Int)

def fminOp (a b : Word) : Word :=
  if isNan32 a then (if isNan32 b then 0x7FC00000 else b)
  else if isNan32 b then a else if order32 a ≤ order32 b then a else b
def fmaxOp (a b : Word) : Word :=
  if isNan32 a then (if isNan32 b then 0x7FC00000 else b)
  else if isNan32 b then a else if order32 a ≤ order32 b then b else a

/-- The FP conditions of R39 and R144. -/
def fpCond (c : Nat) (a b : Word) : Bool :=
  let nan := isNan32 a || isNan32 b
  let x := fp32.val a.toNat; let y := fp32.val b.toNat
  let lt := x.lt y; let gt := y.lt x
  match c with
  | 0 => !nan && !lt && !gt
  | 1 => nan || lt || gt
  | 2 => !nan && lt
  | 3 => !nan && !gt
  | 4 => !nan && gt
  | 5 => !nan && !lt
  | 6 => nan
  | _ => !nan

/-- Widening of a code to FP32 (R132): exact, infinities kept, NaN canonical. -/
def widen (F : Fmt) (c : Nat) : Nat := fp32.round 0 (F.val c)

/-- A signed or unsigned 32-bit integer as an exact value. -/
def intNum (signed : Bool) (a : Nat) : FpNum :=
  if signed && bit a 31 then .fin true (2 ^ 32 - a) 0 else .fin false a 0

/-! ## SFU functions (R145, R146) -/

/-- ⌊√n⌋ by bits, from bit `k` down. -/
def isqrtFrom : Nat → Nat → Nat → Nat
  | 0, _, r => r
  | k + 1, n, r => isqrtFrom k n (if (r + 2 ^ k) * (r + 2 ^ k) ≤ n then r + 2 ^ k else r)

/-- The correctly rounded square root of a positive finite value. -/
def sqrtCode (m : Nat) (e : Int) : Nat :=
  let odd := e % 2
  let n := m * 2 ^ (60 + odd.toNat)
  let r := isqrtFrom 64 n 0
  fp32.round 0 (.fin false r ((e - odd - 60) / 2)) (decide (r * r < n))

/-- The magnitude of a value. -/
def FpNum.abs : FpNum → FpNum
  | .fin _ m e => .fin false m e
  | .inf _ => .inf false
  | .nan => .nan

/-- The magnitude of a finite code in units of 2^−400. -/
def fxMag (c : Nat) : Nat :=
  match fp32.val c with
  | .fin _ m e => m * 2 ^ (e + 400).toNat
  | _ => 0

/-- The ulp of a true value v with ⌊log2 v⌋ = j, in units of 2^−400. -/
def fxUlp (j : Int) : Nat := 2 ^ (max (-149) (j - 23) + 400).toNat

/-- ⌊log2 1/(m × 2^e)⌋. -/
def log2Recip (m : Nat) (e : Int) : Int := -e - Nat.log2 m - (if m = 2 ^ Nat.log2 m then 0 else 1)

/-- Whether finite positive code c is within 1 ulp of 1 / (m × 2^e): |c × a − 1| ≤ ulp × a, each in units of 2^−800. -/
def recipNear (c m : Nat) (e : Int) : Bool :=
  let a := m * 2 ^ (e + 400).toNat
  decide ((fxMag c * a : Int) - 2 ^ 800 ≤ fxUlp (log2Recip m e) * a) && decide ((2 ^ 800 : Int) - fxMag c * a ≤ fxUlp (log2Recip m e) * a)

/-- Whether finite positive code c is within 1 ulp of 1 / √(m × 2^e): (c − ulp)² a ≤ 1 ≤ (c + ulp)² a. -/
def rsqrtNear (c m : Nat) (e : Int) : Bool :=
  let a := m * 2 ^ (e + 400).toNat
  let u := fxUlp (log2Recip m e / 2)
  let lo := fxMag c - u
  let hi := fxMag c + u
  decide (lo * lo * a ≤ 2 ^ 1200) && decide (2 ^ 1200 ≤ hi * hi * a)

/-- 1 / a rounded to nearest, among the finite codes, also where that is 2^128 (notes/assumptions/62.md): the value `frcp`
takes where the free function leaves its bound. -/
def recipCode (m : Nat) (e : Int) : Nat :=
  let q := 2 ^ 200 / m
  min fp32.maxFin (fp32.round 0 (.fin false q (-200 - e)) (decide (q * m < 2 ^ 200)))

/-- `frcp` of a finite nonzero value of normal range: the free function within 1 ulp (R145). -/
def frcpFin (a : Nat) (neg : Bool) (m : Nat) (e : Int) : Nat :=
  let c := (Config.sfu 0x4A (w32 a)).toNat % 2 ^ 31
  fp32.sign neg (if c ≤ fp32.maxFin && recipNear c m e then c else recipCode m e)

/-- `frsq` of a positive finite value: the free function within 1 ulp. -/
def frsqFin (a : Nat) (m : Nat) (e : Int) : Nat :=
  let c := (Config.sfu 0x4B (w32 a)).toNat % 2 ^ 31
  if c ≤ fp32.maxFin && rsqrtNear c m e then c
  else
    let odd := e % 2
    let q := 2 ^ 260 / (m * 2 ^ odd.toNat)
    let r := isqrtFrom 132 q 0
    fp32.round 0 (.fin false r (-130 - (e - odd) / 2)) true

/-- A finite value as an integer, when it is one of magnitude below 2^12. -/
def smallInt (neg : Bool) (m : Nat) (e : Int) : Option Int :=
  if m = 0 then some 0 else
  if 0 ≤ e then (if e ≤ 12 && m * 2 ^ e.toNat < 4096 then some ((if neg then -1 else 1) * (m * 2 ^ e.toNat : Nat)) else none)
  else if m % 2 ^ (-e).toNat = 0 && m / 2 ^ (-e).toNat < 4096 then
    some ((if neg then -1 else 1) * (m / 2 ^ (-e).toNat : Nat))
  else none

/-! ### The true values of `fex2`, `flg2`, `fsin` and `fcos`

Numbers of 400 fraction bits. Each sum below is off its true value by less than 2^−370, and `near` allows that much, so
no value inside a bound of R145 is shut out; cos 2^−149, the value nearest to a number, differs from 1 by 2^−299. -/

def fxOne : Nat := 2 ^ 400
/-- Σ x^k / k!, from its term for k. -/
def expSum : Nat → Nat → Nat → Nat → Nat
  | 0, _, _, _ => 0
  | fuel + 1, k, term, x => term + expSum fuel (k + 1) (term * x / (fxOne * (k + 1))) x
/-- Σ ± z^(2k+1) / (2k+1), from its power for k: artanh, and with alternating signs arctan. -/
def oddSum (alt : Bool) : Nat → Nat → Int → Int → Int
  | 0, _, _, _ => 0
  | fuel + 1, k, p, zz => p / (2 * k + 1 : Nat) + oddSum alt fuel (k + 1) ((if alt then -p else p) * zz / fxOne) zz
/-- Σ ± r^k / k! over every second k, from its term for k: sin from k = 1, cos from k = 0. -/
def trigSum : Nat → Nat → Int → Int → Int
  | 0, _, _, _ => 0
  | fuel + 1, k, term, rr => term + trigSum fuel (k + 2) (-(term * rr / fxOne) / ((k + 1) * (k + 2) : Nat)) rr
def ln2Fx : Int := 2 * oddSum false 130 0 (fxOne / 3 : Nat) (fxOne / 9 : Nat)
def twoPiFx : Int := 32 * oddSum true 90 0 (fxOne / 5 : Nat) (fxOne / 25 : Nat) - 8 * oddSum true 90 0 (fxOne / 239 : Nat) (fxOne / 57121 : Nat)

/-- Whether code c is a number within b of t, both in units of 2^−s. -/
def near (c : Nat) (t : Int) (s : Int) (b : Nat) : Bool :=
  match fp32.val c with
  | .fin neg m e =>
    let v : Int := (m * 2 ^ (e + s + 400).toNat : Nat)
    decide (((if neg then -v else v) - t * 2 ^ 400).natAbs ≤ b * 2 ^ 400)
  | _ => false
/-- The free value where it is within b of the true value t, else t rounded. -/
def boundedTo (free : Nat) (t : Int) (s : Int) (b : Nat) : Nat :=
  if near free t s (b + 2 ^ 30) then free else fp32.round 0 (.fin (decide (t < 0)) t.natAbs (-s)) true

/-- `fex2` of a finite value that is no integer: the free function within 2 ulp (R145). -/
def fex2Fin (free : Nat) (neg : Bool) (m : Nat) (e : Int) : Nat :=
  let x : Int := (m * 2 ^ (e + 400).toNat : Nat)
  let a := if neg then -x else x
  let n := a / fxOne
  let frac := a % fxOne
  boundedTo free (expSum 90 0 fxOne (frac * ln2Fx / fxOne).toNat) (400 - n) (2 ^ (1 + max 377 (251 - n)).toNat)
/-- `flg2` of a positive finite value: the free function within 2 ulp, or within 2^−22 where a is in [0.5, 2]. -/
def flg2Fin (free : Nat) (inside : Bool) (m : Nat) (e : Int) : Nat :=
  let k := Nat.log2 m
  let y : Int := (m * fxOne / 2 ^ k : Nat)
  let z := (y - fxOne) * fxOne / (y + fxOne)
  let t := (e + k) * fxOne + 2 * oddSum false 130 0 z (z * z / fxOne) * fxOne / ln2Fx
  boundedTo free t 400 (if inside then 2 ^ 378 else 2 ^ (Nat.log2 t.natAbs - 22))
/-- `fsin` and `fcos` of a finite value of magnitude up to 65,536: the free function within 2^−21. -/
def fsinFin (free : Nat) (cos neg : Bool) (m : Nat) (e : Int) : Nat :=
  let r := (m * 2 ^ (e + 400).toNat : Nat) % twoPiFx
  let t := if cos then trigSum 80 0 fxOne (r * r / fxOne) else trigSum 80 1 r (r * r / fxOne)
  boundedTo free (if !cos && neg then -t else t) 400 (2 ^ 379)

/-- Sfu (R145, R146): the special cases, the exact results, and elsewhere the free function inside its bound. For `fsin`
and `fcos` beyond 65,536 the free value is kept inside [−1, 1]. -/
def sfuOp (op : Nat) (a : Word) : Word :=
  let an := a.toNat
  let free := Config.sfu op a
  w32 <| match fp32.val an with
  | .nan => 0x7FC00000
  | .inf neg =>
    match op with
    | 0x4A => fp32.sign neg 0
    | 0x4B => if neg then 0x7FC00000 else 0
    | 0x4C => if neg then 0x7FC00000 else 0x7F800000
    | 0x4D => if neg then 0 else 0x7F800000
    | 0x4E => if neg then 0x7FC00000 else 0x7F800000
    | _ => 0x7FC00000
  | .fin neg m e =>
    if m = 0 then
      match op with
      | 0x4A => fp32.sign neg 0x7F800000
      | 0x4B => fp32.sign neg 0x7F800000
      | 0x4C => fp32.sign neg 0
      | 0x4D => 0x3F800000
      | 0x4E => 0xFF800000
      | 0x4F => fp32.sign neg 0
      | _ => 0x3F800000
    else
      match op with
      | 0x4A => if an % 2 ^ 31 < 0x00200000 then fp32.sign neg 0x7F800000
                else if an = 0x3F800000 then an else frcpFin an neg m e
      | 0x4B => if neg then 0x7FC00000 else if an = 0x3F800000 then an else frsqFin an m e
      | 0x4C => if neg then 0x7FC00000 else sqrtCode m e
      | 0x4D =>
        if !neg && 0x43000000 ≤ an then 0x7F800000
        else if neg && 0x43150000 < an % 2 ^ 31 then 0
        else match smallInt neg m e with
          | some k => fp32.round 0 (.fin false 1 k)
          | none => fex2Fin free.toNat neg m e
      | 0x4E =>
        if neg then 0x7FC00000
        else if m = 2 ^ Nat.log2 m then fp32.round 0 (let k : Int := Nat.log2 m + e
                                                     .fin (decide (k < 0)) k.natAbs 0)
        else flg2Fin free.toNat (decide (0x3F000000 ≤ an ∧ an ≤ 0x40000000)) m e
      | _ =>
        if an % 2 ^ 31 ≤ 0x47800000 then fsinFin free.toNat (op != 0x4F) neg m e
        else if 0x3F800000 < free.toNat % 2 ^ 31 then 0 else free.toNat

/-! ## Zhevior blocks (R126 to R129) -/

/-- The magnitudes of a kind by code, in units of 2^−5 (ZB8) or 1 (ZB4). -/
def zbMag (zb4 : Bool) (c : Nat) : Nat :=
  if zb4 then (match c with | 0 => 0 | 1 => 1 | 2 => 2 | _ => 4)
  else if c / 8 = 0 then c % 8 else (8 + c % 8) * 2 ^ (c / 8 - 1)

/-- The exponent of the unit of `zbMag` at shared exponent X. -/
def zbExp (zb4 : Bool) (X : Nat) : Int := (X : Int) - 127 - (if zb4 then 0 else 5)

/-- The value of an element code under exponents XA and XB (R126). -/
def zbVal (zb4 : Bool) (c xa xb : Nat) : FpNum :=
  let top := if zb4 then 3 else 7
  let X := if bit c top then xb else xa
  if X = 0xFF then .nan else .fin (bit c (top - 1)) (zbMag zb4 (c % 2 ^ (top - 1))) (zbExp zb4 X)

/-- A ZB element decoded to FP32 (R129). -/
def zbDecode (zb4 : Bool) (c xa xb : Nat) : Nat := fp32.sat 0 (zbVal zb4 c xa xb)

/-- The distance of two non-negative finite values, as signed units at exponent lo. -/
def dist (lo : Int) (a b : FpNum) : Nat := (FpNum.units lo a - FpNum.units lo b).natAbs

/-- GridRound (R128): the nearest magnitude code at exponent X; a tie goes to the even code. -/
def gridRound (zb4 : Bool) (y : FpNum) (X : Nat) : Nat :=
  let lo := min (lowExp [y]) (zbExp zb4 X)
  let q (c : Nat) : FpNum := .fin false (zbMag zb4 c) (zbExp zb4 X)
  (List.range (if zb4 then 4 else 64)).foldl (fun best c =>
    let d := dist lo y (q c); let b := dist lo y (q best)
    if d < b || (d == b && c % 2 == 0 && best % 2 == 1) then c else best) 0

/-- Fin of R128: infinities become the largest finite value. -/
def finOf : FpNum → FpNum
  | .inf n => .fin n 0xFFFFFF 104
  | x => x

/-- ⌊log2⌋ of a positive finite value. -/
def log2Num : FpNum → Int
  | .fin _ m e => Nat.log2 m + e
  | _ => 0

/-- ZbEncode (R128): element codes, XA and XB. -/
def zbEncode (zb4 : Bool) (k : Nat) (vs : List FpNum) : List Nat × Nat × Nat :=
  let top : Int := if zb4 then 2 else 4
  let ys := (vs.filter (· != .nan)).map (fun v => (finOf v).abs)
  let mx := ys.foldl (fun a b => if a.lt b then b else a) (.fin false 0 0)
  let xa : Nat := match mx with | .fin _ 0 _ => 0 | x => (max (log2Num x - top + 127) 0).toNat
  let xb := xa - k
  let hasNan := vs.any (· == .nan)
  let selBit := if zb4 then 8 else 128
  let signBit := if zb4 then 4 else 64
  let codes := vs.map (fun v =>
    match finOf v with
    | .fin neg m e =>
      let y : FpNum := .fin false m e
      let ca := gridRound zb4 y xa; let cb := gridRound zb4 y xb
      let lo := min (lowExp [y]) (zbExp zb4 xb)
      let da := dist lo y (.fin false (zbMag zb4 ca) (zbExp zb4 xa))
      let db := dist lo y (.fin false (zbMag zb4 cb) (zbExp zb4 xb))
      let sg := if neg then signBit else 0
      if !hasNan && db < da then selBit + sg + cb else sg + ca
    | _ => selBit)
  (codes, xa, if hasNan then 0xFF else xb)

end Sys2Proof.Machine
end

