-- ==== Sys2Proof/Machine/Cipher.lean ====
section
/-! DEFINITION. The ciphers the spec names and leaves to their standards (notes/assumptions/23.md): AES-256 (FIPS 197), its
counter mode with GHASH (GCM, SP 800-38D) for R248, R375 and R408, XTS (IEEE 1619) for R180, and SHA3-512 (FIPS 202) for
R397. -/
namespace Sys2Proof.Machine

/-- Bytes of a value, and the value of bytes, the most significant first. -/
def toBE (n v : Nat) : List Byte := (toLE n v).reverse
def beNat (bs : List Byte) : Nat := leNat bs.reverse

/-- Two strings of bytes added bit by bit. -/
def xorBytes (a b : List Byte) : List Byte := List.zipWith (· ^^^ ·) a b

/-! ## The block cipher -/

/-- Doubling, product and powers in the field of 256 elements of FIPS 197. -/
def gfDouble (b : Byte) : Byte := (b <<< (1 : Nat)) ^^^ (if b.getLsbD 7 then 0x1B else 0)
def gfMul (a b : Byte) : Byte := (List.range 8).foldl (fun v i => gfDouble v ^^^ (if b.getLsbD (7 - i) then a else 0)) 0
def gfPow (a : Byte) : Nat → Byte
  | 0 => 1
  | n + 1 => gfMul a (gfPow a n)

/-- The substitution of one byte: its inverse in the field, then an affine map. -/
def subByte (b : Byte) : Byte :=
  let i := gfPow b 254
  (List.range 5).foldl (fun v k => v ^^^ i.rotateLeft k) 0x63
def subTable : List Byte := (List.range 256).map (fun n => subByte (BitVec.ofNat 8 n))
def subBytes (bs : List Byte) : List Byte := bs.map (fun b => subTable.getD b.toNat 0)

/-- The words of the key schedule from the ones there are on, the newest first. -/
def keyWords : Nat → List (List Byte) → List (List Byte)
  | 0, ws => ws
  | n + 1, ws =>
    let i := ws.length
    let w := ws.headD []
    let t := if i % 8 = 0 then xorBytes (subBytes (w.drop 1 ++ w.take 1)) [gfPow 2 (i / 8 - 1), 0, 0, 0] else if i % 8 = 4 then subBytes w else w
    keyWords n (xorBytes (ws.getD 7 []) t :: ws)

/-- The 15 round keys of a key, as its bytes in order. -/
def roundKeys (key : BitVec 256) : List (List Byte) :=
  let ks := toBE 32 key.toNat
  let ws := (keyWords 52 ((List.range 8).map (fun i => (ks.drop (4 * i)).take 4)).reverse).reverse.flatten
  (List.range 15).map (fun r => (ws.drop (16 * r)).take 16)

/-- A block's byte i is row i mod 4 of column i / 4; row r moves left by r columns. -/
def shiftRows (bs : List Byte) : List Byte := (List.range 16).map (fun i => bs.getD ((i + 4 * (i % 4)) % 16) 0)
def mixColumns (bs : List Byte) : List Byte :=
  (List.range 16).map (fun i =>
    let c (k : Nat) : Byte := bs.getD (i / 4 * 4 + (i + k) % 4) 0
    gfDouble (c 0) ^^^ gfDouble (c 1) ^^^ c 1 ^^^ c 2 ^^^ c 3)

/-- AES-256 of a block under its round keys. -/
def aesBlock (ks : List (List Byte)) (block : List Byte) : List Byte :=
  let round (b : List Byte) (k : List Byte) : List Byte := xorBytes (mixColumns (shiftRows (subBytes b))) k
  let b := ((ks.drop 1).take 13).foldl round (xorBytes block (ks.headD []))
  xorBytes (shiftRows (subBytes b)) (ks.getD 14 [])

/-! ## GCM -/

/-- The product of two blocks in GHASH's field, whose first bit is the most significant. -/
def ghashMul (x h : BitVec 128) : BitVec 128 :=
  ((List.range 128).foldl (fun (a : BitVec 128 × BitVec 128) i =>
    (if x.getMsbD i then a.1 ^^^ a.2 else a.1, (a.2 >>> (1 : Nat)) ^^^ (if a.2.getLsbD 0 then 0xE1#128 <<< (120 : Nat) else 0))) (0, h)).1

/-- GHASH of bytes, the last block filled up with zeros, from a value on. -/
def ghash (h y : BitVec 128) (bs : List Byte) : BitVec 128 :=
  (List.range ((bs.length + 15) / 16)).foldl (fun y j =>
    let b := (bs.drop (16 * j)).take 16
    ghashMul (y ^^^ BitVec.ofNat 128 (beNat b * 256 ^ (16 - b.length))) h) y

/-- The counter block i of an IV, encrypted: block 1 masks the tag, the keystream begins with block 2. -/
def gcmBlock (ks : List (List Byte)) (iv : BitVec 96) (i : Nat) : List Byte := aesBlock ks (toBE 12 iv.toNat ++ toBE 4 (i % 2 ^ 32))

/-- Bytes from position `off` of the data, encrypted or decrypted. -/
def gcmXor (key : BitVec 256) (iv : BitVec 96) (off : Nat) (bs : List Byte) : List Byte :=
  let ks := roundKeys key
  xorBytes bs (((List.range' (off / 16) ((off % 16 + bs.length + 15) / 16)).flatMap (fun i => gcmBlock ks iv (i + 2))).drop (off % 16))

/-- The 16 bytes of the tag of additional data and ciphertext. -/
def gcmTag (key : BitVec 256) (iv : BitVec 96) (aad ct : List Byte) : List Byte :=
  let ks := roundKeys key
  let h := BitVec.ofNat 128 (beNat (aesBlock ks (toBE 16 0)))
  let y := ghash h (ghash h 0 aad) ct
  xorBytes (toBE 16 (ghashMul (y ^^^ BitVec.ofNat 128 (8 * aad.length * 2 ^ 64 + 8 * ct.length)) h).toNat) (gcmBlock ks iv 1)

/-! ## XTS -/

/-- XTS of the blocks of a data unit: data key, tweak key, tweak. The tweak doubles from block to block, its first byte the
least significant. -/
def xtsUnit (kd kt : BitVec 256) (tweak : Nat) (bs : List Byte) : List Byte :=
  let ks := roundKeys kd
  let t0 := leNat (aesBlock (roundKeys kt) (toLE 16 tweak))
  ((List.range (bs.length / 16)).foldl (fun (a : List Byte × Nat) j =>
    let t := toLE 16 a.2
    (a.1 ++ xorBytes (aesBlock ks (xorBytes ((bs.drop (16 * j)).take 16) t)) t,
     Nat.xor (a.2 * 2 % 2 ^ 128) (if 2 ^ 127 ≤ a.2 then 0x87 else 0))) ([], t0)).1

/-! ## SHA3-512 -/

/-- The 5 × 5 lanes of the permutation, lane (x, y) at place x + 5y. -/
abbrev Lanes := List W64

def laneAt (a : Lanes) (x y : Nat) : W64 := a.getD (x % 5 + 5 * (y % 5)) 0
def lanesBy (f : Nat → Nat → W64) : Lanes := (List.range 25).map (fun i => f (i % 5) (i / 5))

/-- How far lane (x, y) rotates: the t-th place of the walk from (1, 0) rotates by (t + 1)(t + 2)/2. -/
def rhoOf (x y : Nat) : Nat :=
  ((List.range 24).foldl (fun (a : Nat × Nat × Nat) t =>
    let (u, v, r) := a
    (v, (2 * u + 3 * v) % 5, if u = x ∧ v = y then (t + 1) * (t + 2) / 2 else r)) (1, 0, 0)).2.2
def rhos : List Nat := (List.range 25).map (fun i => rhoOf (i % 5) (i / 5))

/-- The t-th bit of the round constants' shift register. -/
def rcBit (t : Nat) : Bool :=
  ((List.range (t % 255)).foldl (fun (r : Nat) _ => Nat.xor (2 * r % 256) (if 128 ≤ r then 0x71 else 0)) 1) % 2 == 1
def rcOf (i : Nat) : W64 := (List.range 7).foldl (fun v j => if rcBit (j + 7 * i) then v ||| (1#64 <<< (2 ^ j - 1)) else v) 0
def rcs : List W64 := (List.range 24).map rcOf

/-- One round: θ, then ρ and π, χ and ι. -/
def keccakRound (a : Lanes) (i : Nat) : Lanes :=
  let c (x : Nat) : W64 := laneAt a x 0 ^^^ laneAt a x 1 ^^^ laneAt a x 2 ^^^ laneAt a x 3 ^^^ laneAt a x 4
  let cs := (List.range 5).map c
  let th := lanesBy (fun x y => laneAt a x y ^^^ cs.getD ((x + 4) % 5) 0 ^^^ (cs.getD ((x + 1) % 5) 0).rotateLeft 1)
  let b := lanesBy (fun x y => (laneAt th (x + 3 * y) x).rotateLeft (rhos.getD ((x + 3 * y) % 5 + 5 * x) 0 % 64))
  let ch := lanesBy (fun x y => laneAt b x y ^^^ (~~~(laneAt b (x + 1) y) &&& laneAt b (x + 2) y))
  ch.set 0 (ch.headD 0 ^^^ rcs.getD i 0)

/-- SHA3-512: blocks of 72 bytes, the message ended by the bits of 0x06 and the last block by 0x80. -/
def sha3 (m : List Byte) : BitVec 512 :=
  let n := m.length / 72 + 1
  let pad := m ++ [6] ++ toLE (72 * n - m.length - 1) 0
  let pad := pad.set (72 * n - 1) (pad.getD (72 * n - 1) 0 ||| 0x80)
  let st := (List.range n).foldl (fun (a : Lanes) k =>
    let blk := (pad.drop (72 * k)).take 72
    (List.range 24).foldl keccakRound (a.mapIdx (fun i w => if i < 9 then w ^^^ BitVec.ofNat 64 (leNat ((blk.drop (8 * i)).take 8)) else w)))
    (List.replicate 25 0)
  BitVec.ofNat 512 (leNat ((st.take 8).flatMap (fun w => toLE 8 w.toNat)))

end Sys2Proof.Machine
end

