-- ==== Sys2Proof/Machine/Translate.lean ====
section
/-! DEFINITION. Reads and writes as observers and homes make them, system registers of a function, and
translation: page-table walks, TLBs, permissions, slices and granule attributes (R176 to R187, R195, R210). -/
namespace Sys2Proof.Machine

/-! ## System registers -/

/-- The value of a register nothing has written (R14, R325). -/
def sysReset (n : Nat) : W64 :=
  if n = 0x010 then 160000 else if n = 0x011 then BitVec.ofNat 64 (800000 * 2 ^ 32 + 100000) else 0

/-- A stored system register of a function. -/
def Func.reg (f : Func) (n : Nat) : Nat := (tgetD f.regs n (sysReset n)).toNat

/-- Sets a stored system register. -/
def Func.setReg (f : Func) (n v : Nat) : Func := { f with regs := tset f.regs n (BitVec.ofNat 64 v) }

/-! ## Bytes at the home and in a view -/

/-- Bytes at a place with the bytes of a write laid over them. -/
def overlay (a : Nat) (bs : List Byte) (loc : Nat) (data : List Byte) : List Byte :=
  bs.mapIdx (fun i b => if loc ≤ a + i ∧ a + i < loc + data.length then data.getD (a + i - loc) b else b)

/-- Whether n bytes at a place overlap a write. -/
def Wr.overlaps (w : Wr) (a n : Nat) : Bool := decide (w.loc < a + n) && decide (a < w.loc + w.data.length)

/-- The latest applied value of n bytes at a home (R212). -/
def State.homeRead (s : State) (a n : Nat) : List Byte :=
  s.applied.foldl (fun bs w => if w.overlaps a n then overlay a bs w.loc w.data else bs) (mread s.mem a n)

/-- Whether a thread's reads on a path of a die return this applied write or a later one (R210, R212, R216). -/
def Wr.seenBy (w : Wr) (o : Ord) (strand lane : Nat) (p : Path) (die : Nat) : Bool :=
  w.strong || w.all || w.vis.contains (p, die) || o.must.contains (w.id, p) || o.seen.any (·.1 == w.id) ||
  (w.strand == strand && w.lane == lane && w.path == p)

/-- Whether a write is visible to the observers on a path of a die (R210). -/
def Wr.visible (w : Wr) (p : Path) (die : Nat) : Bool := w.strong || w.all || w.vis.contains (p, die)

/-- The value of n bytes a thread's ordinary read returns: the newest applied write it sees in each byte,
then its own writes not yet applied (R210). -/
def State.viewRead (s : State) (o : Ord) (strand lane : Nat) (p : Path) (die a n : Nat) : List Byte :=
  let bs := s.applied.foldl (fun bs w =>
    if w.overlaps a n && w.seenBy o strand lane p die then overlay a bs w.loc w.data else bs) (mread s.mem a n)
  s.inflight.foldl (fun bs w =>
    if w.overlaps a n && w.strand == strand && w.lane == lane && w.path == p then overlay a bs w.loc w.data else bs) bs

/-- The applied writes among those of `f` that give some byte of n bytes its value. -/
def State.sources (s : State) (f : Wr → Bool) (a n : Nat) : List Wr :=
  let ws := s.applied.filter (fun w => w.overlaps a n && f w)
  let last (i : Nat) : Option Nat := (ws.filter (fun w => w.overlaps (a + i) 1)).getLast?.map Wr.id
  ws.filter (fun w => (List.range n).any (fun i => last i == some w.id))

/-- The writes a read of n bytes has returned, with what they carry (R213). -/
def State.readFrom (s : State) (f : Wr → Bool) (a n : Nat) : List (Nat × Path) :=
  (s.sources f a n).flatMap (fun w => (w.id, w.path) :: w.carry)

/-- Entries added to a set of writes. -/
def addWrites (h new : List (Nat × Path)) : List (Nat × Path) := h ++ new.filter (fun e => !h.contains e)

/-- The entries of a history on the paths of a mask, by path index (R29). -/
def pathIdx : Path → Nat
  | .core => 0 | .copy => 1 | .matrix => 2 | .comb => 3 | .peer => 4 | .host => 5
def onPaths (h : List (Nat × Path)) (m : BitVec 6) : List (Nat × Path) := h.filter (fun e => m.getLsbD (pathIdx e.2))
def pathOf (i : Nat) : Path := [Path.core, .copy, .matrix, .comb, .peer, .host].getD i .core

/-- Moves the applied writes that every observer sees, that no earlier write overlaps, and that release nothing of
`live` any more (R215), into memory. -/
def foldWrites (live : List Nat) (mem : List Host.Cell) : List Wr → List Wr → List Host.Cell × List Wr
  | kept, [] => (mem, kept.reverse)
  | kept, w :: ws =>
    if w.all && !kept.any (fun v => v.overlaps w.loc w.data.length) && w.carry.all (fun e => !live.contains e.1) then
      foldWrites live (mwrite mem w.loc w.data) kept ws
    else foldWrites live mem (w :: kept) ws

/-- The ids of the writes a strand's pending accesses have still to make. -/
def Strand.unleft (st : Strand) : List Nat :=
  st.pends.flatMap (fun p => (p.ords.filter (fun o => o.wid != 0 && p.caps.any (·.lane == o.lane))).flatMap (fun o => [o.wid, o.wid + 1]))

/-- The ids of the writes that some observer does not see yet: not issued to their homes, not applied, or not
visible to all. -/
def State.liveWrites (s : State) : List Nat :=
  s.strands.flatMap (fun e => e.2.unleft) ++ s.inflight.map Wr.id ++ (s.applied.filter (fun w => !w.all)).map Wr.id

def State.fold (s : State) : State :=
  let (m, a) := foldWrites s.liveWrites s.mem [] s.applied
  { s with mem := m, applied := a }

/-! ## What becomes visible to an observer (R210, R216 to R218) -/

/-- Whether the writes a write depends on, and those applied before it to its bytes, are visible to an observer on
path p, or to all with none (R210, R216 to R218): of what it carries, an observer is owed the writes on its own
path. -/
def State.ripe (s : State) (w : Wr) (p : Option Path) (sees : Wr → Bool) : Bool :=
  let owed (id : Nat) : Bool := w.carry.any (fun e => e.1 == id && p.all (· == e.2))
  (s.applied.takeWhile (fun v => v.id != w.id)).all (fun v => !v.overlaps w.loc w.data.length || sees v) &&
  s.applied.all (fun v => v.id == w.id || !owed v.id || sees v) &&
  s.inflight.all (fun v => !owed v.id) && s.strands.all (fun e => e.2.unleft.all (fun id => !owed id))

/-- Whether a write becomes visible with another: those of one beat to one aligned unit of 16 bytes (R230). -/
def Wr.mate (w v : Wr) : Bool := v.id == w.id || (w.beat != 0 && v.beat == w.beat && v.cmd == w.cmd && v.path == w.path && v.loc / 16 == w.loc / 16)

/-- Whether a write may become visible, with those that become so together with it. -/
def State.mayShow (s : State) (w : Wr) (p : Option Path) (sees : Wr → Bool) : Bool :=
  (s.applied.filter w.mate).all (fun v => s.ripe v p (fun u => w.mate u || sees u))

/-- Makes a write visible to the observers on a path of a die. -/
def State.reveal (s : State) (w : Wr) (p : Path) (die : Nat) : State :=
  { s with applied := s.applied.map (fun (v : Wr) => if w.mate v && !v.vis.contains (p, die) then { v with vis := (p, die) :: v.vis } else v) }

/-- What a thread's read of n bytes makes visible to its observer: a write that it returns has entered the one view of
its path and die, with what was applied before it to its bytes, unless it is the thread's own. None while a write that
it must return may not enter the view yet (R210, R218, notes/assumptions/61.md). -/
def State.look (s : State) (o : Ord) (strand lane : Nat) (p : Path) (die a n : Nat) : Option State :=
  let own (w : Wr) : Bool := w.strand == strand && w.lane == lane && w.path == p
  let ws := (s.sources (·.seenBy o strand lane p die) a n).filter (fun w => !w.visible p die && !own w)
  let upto := (s.applied.reverse.dropWhile (fun v => !ws.any (·.id == v.id))).reverse
  (upto.filter (fun v => !v.visible p die && ws.any (fun w => v.overlaps w.loc w.data.length))).foldl (fun t v =>
    t.bind (fun t => if t.mayShow v (some p) (·.visible p die) then some (t.reveal v p die) else none)) (some s)

/-- The same for all that a command reads in n bytes, each write that it sees there by its own bytes (R210). -/
def State.lookOver (s : State) (o : Ord) (lane : Nat) (p : Path) (die a n : Nat) : Option State :=
  (s.applied.filter (fun w => w.overlaps a n && w.seenBy o 0 lane p die && !w.visible p die)).foldl (fun t w =>
    t.bind (fun t => t.look o 0 lane p die w.loc w.data.length)) (some s)

/-- What the observers on a path of a die see once their line of n bytes is gone and read again from the home: every
write applied to it that may enter their view (R197, R207). -/
def State.refresh (s : State) (p : Path) (die a n : Nat) : State :=
  s.applied.foldl (fun t v =>
    if v.overlaps a n && t.mayShow v (some p) (·.visible p die) then t.reveal v p die else t) s

/-- A write the hardware makes at a home and that every observer sees: tables, queues, node fields. -/
def State.homeWrite (s : State) (a : Nat) (bs : List Byte) : State :=
  if s.applied.any (fun w => w.overlaps a bs.length) then
    let w : Wr := {
      id := s.nextId, strand := 0, lane := 0, cx := 0, fn := 0, path := .core, die := 0, loc := a, op := .store, data := bs
      strong := true, carry := [], vis := [], all := true, cmd := none, wait := 0, pc := 0, ptr := 0 }
    { s with applied := s.applied ++ [w], nextId := s.nextId + 1 }.fold
  else { s with mem := mwrite s.mem a bs }

/-! ## Rows of E and EIR granules (R180, R374 to R376) -/

/-- The AES-256-XTS data key of a slice's entry. -/
def Slice.kd (x : Slice) : BitVec 256 := Config.freeKey (3 * x.keyIx)
/-- The AES-256-XTS tweak key of a slice's entry. -/
def Slice.kt (x : Slice) : BitVec 256 := Config.freeKey (3 * x.keyIx + 1)
/-- The integrity key of a slice's entry. -/
def Slice.km (x : Slice) : BitVec 256 := Config.freeKey (3 * x.keyIx + 2)

/-- The entry a row is encrypted and checked under: that of the slice that owns its channel at the moment of access. -/
def State.rowSlice (s : State) (row : Nat) : Slice := s.slice (s.chanSlice (chanOf (1024 * row)))

/-- The attribute a row is held under: an unset attribute is clear. -/
def State.rowAttr (s : State) (row : Nat) : Nat := (s.granule (granOf (1024 * row))).attr.getD 0

/-- The 1,024 bytes a row's cells hold: as written in a clear granule, else one XTS data unit whose tweak is PA[39:10]. -/
def State.rowCells (s : State) (row : Nat) : List Byte :=
  let bs := s.homeRead (1024 * row) 1024
  if s.rowAttr row = 0 then bs
  else
    let x := s.rowSlice row
    xtsUnit x.kd x.kt row bs

/-- The EPOCH a row stands under: the one before while the sweep has not reached it (R376). -/
def State.rowEpoch (s : State) (row : Nat) : Nat :=
  let c := s.chan (chanOf (1024 * row))
  if c.sweep && !c.swept.contains row then c.epoch - 1 else c.epoch

/-- Ends the sweep of a channel: its other EIR rows stand at version 0 under the new EPOCH (R376). -/
def State.sweepChan (s : State) (c : Nat) : State :=
  let kept := (s.chan c).swept
  { s.setChan c (fun x => { x with sweep := false, swept := [] }) with
    rowver := s.rowver.filter (fun r => r.1 / 2 ^ 20 != c || kept.contains r.1) }

/-- Whether a row stands under the EPOCH before, so that its versions end in the new one (R376). -/
def State.behind (s : State) (row : Nat) : Bool :=
  let c := s.chan (row / 2 ^ 20)
  c.sweep && !c.swept.contains row

/-- Whether one more write would take the version of an EIR row past its range and its channel's EPOCH past
its own (R376). -/
def State.lastVersion (s : State) (a : Nat) : Bool :=
  decide (2 ^ 28 ≤ tgetD s.rowver (a / 1024) 0 + 1) && decide (2 ^ 32 ≤ (s.chan (chanOf a)).epoch + 1) && !s.behind (a / 1024)

/-- Whether the base die refuses a write to an EIR row because its channel is, or becomes, exhausted (R376). -/
def State.exhausted (s : State) (a : Nat) : Bool :=
  isDram a && (s.granule (granOf a)).attr == some 2 && ((s.chan (chanOf a)).exhausted || s.lastVersion a)

/-- Makes the channel exhausted whose last EPOCH a refused write would pass (R376). -/
def State.exhaust (s : State) (a : Nat) : State :=
  if s.exhausted a then s.setChan (chanOf a) (fun x => { x with exhausted := true }) else s

/-- Advances the version of one EIR row; past its range the row goes on at version 0 under the next EPOCH of its
channel, which the base die sweeps (R375, R376). -/
def State.versionUp (s : State) (row : Nat) : State :=
  let v := tgetD s.rowver row 0
  let c := row / 2 ^ 20
  if v + 1 < 2 ^ 28 then { s with rowver := tset s.rowver row (v + 1) }
  else if s.behind row then
    { s.setChan c (fun x => { x with swept := row :: x.swept }) with rowver := tdel s.rowver row }
  else
    let s := s.sweepChan c
    { s.setChan c (fun x => { x with epoch := x.epoch + 1, sweep := true, swept := [row] }) with rowver := tdel s.rowver row }

/-- What a write of n bytes changes beside the bytes: dirty bits (R408) and, in EIR granules, versions. -/
def State.touch (s : State) (a n : Nat) : State :=
  if !isDram a then s
  else
    (List.range ((a + n - 1) / 1024 + 1 - a / 1024)).foldl (fun s i =>
      let row := a / 1024 + i
      let g := row * 1024 / 65536
      let s := s.setGran g (fun g => { g with dirty := true })
      if (s.granule g).attr == some 2 then s.versionUp row else s) s

/-- A write the hardware applies at a home: dirty bits and row versions included. -/
def State.place (s : State) (a : Nat) (bs : List Byte) : State := (s.homeWrite a bs).touch a bs.length

/-! ## Page tables (R176 to R179) -/

/-- The fields of a table entry or leaf. -/
structure Pte where
  v : Nat

def Pte.valid (e : Pte) : Bool := bit e.v 0
def Pte.leaf (e : Pte) : Bool := bit e.v 1
def Pte.size (e : Pte) : Nat := bits e.v 3 2
def Pte.r (e : Pte) : Bool := bit e.v 4
def Pte.w (e : Pte) : Bool := bit e.v 5
def Pte.x (e : Pte) : Bool := bit e.v 6
def Pte.acc (e : Pte) : Bool := bit e.v 7
def Pte.dirty (e : Pte) : Bool := bit e.v 8
def Pte.schk (e : Pte) : Bool := bit e.v 9
def Pte.pa (e : Pte) : Nat := bits e.v 56 16 * 65536
def Pte.host (e : Pte) : Bool := bit e.v 61
def Pte.attr (e : Pte) : Nat := bits e.v 63 62
def Pte.next (e : Pte) : Nat := bits e.v 56 8 * 256

/-- The span of a leaf at a level, in bytes. -/
def levelSize (lvl : Nat) : Nat := if lvl = 1 then 2 ^ 30 else if lvl = 2 then 2 ^ 21 else 65536

/-- The index of an address at a level (R177). -/
def levelIndex (va lvl : Nat) : Nat :=
  if lvl = 1 then bits va 47 30 else if lvl = 2 then bits va 29 21 else bits va 20 16

/-- Whether a valid entry is malformed (R178). -/
def Pte.malformed (e : Pte) (lvl : Nat) : Bool :=
  if e.leaf then
    bits e.v 60 57 != 0 || bits e.v 15 10 != 0 || e.size != 3 - lvl || e.pa % levelSize lvl != 0 || e.attr == 3 ||
    (e.host && e.attr != 0) || (!e.host && e.pa ≥ dramSize)
  else
    bits e.v 63 57 != 0 || bits e.v 7 2 != 0 || lvl == 3 || (lvl == 1 && bits e.v 11 8 != 0)

/-- Why an access stops at translation or at its home. -/
structure Stop where
  code : Nat
  detail : Nat := 0
  recov : Bool := false

/-- What a walk reaches: the leaf and where it stands. -/
structure Leaf where
  entry : Pte
  addr : Nat
  lvl : Nat

def stopNotMapped : Stop := ⟨0x08, 0, true⟩
def stopMalformed : Stop := ⟨0x08, 1, false⟩

/-- The check of n bytes at their home: no sector poisoned, no granule LOST, in the order of step 7 of R175. -/
def State.homeStop (s : State) (a n : Nat) : Option Stop :=
  if (sectorsOf a n).any s.poison.contains then some ⟨0x0C, 0, false⟩
  else if isDram a && (s.granule (granOf a)).lost then some ⟨0x0D, 0, true⟩
  else none

/-- No fault: what is read stands in a home that takes no accesses for now, and the reader waits (R381, R413). -/
def stopHeld : Stop := ⟨256, 0, false⟩

/-- The 8 bytes of a table entry as a walker of table pages of attribute `attr` reads them (R176, R180,
notes/assumptions/59.md): a page held under another attribute gives its ciphertext, or fails its integrity check. -/
def State.tableRead (s : State) (attr a : Nat) : Stop ⊕ List Byte :=
  match (if s.homeHeld a then some stopHeld else s.homeStop a 8) with
  | some x => .inl x
  | none =>
    match (s.granule (granOf a)).attr with
    | none => .inr (s.homeRead a 8)
    | some m =>
      if m == attr then .inr (s.homeRead a 8)
      else if attr == 2 then .inl ⟨0x0C, 0, false⟩
      else .inr (((s.rowCells (a / 1024)).drop (a % 1024)).take 8)

/-- One walk of the tables of function f from level `lvl` at table address `t` (R179); `die` holds the
walker cache. -/
def State.walkFrom (s : State) (die f va attr : Nat) : Nat → Nat → Nat → State × (Stop ⊕ Leaf)
  | 0, _, _ => (s, .inl stopMalformed)
  | fuel + 1, lvl, t =>
    let a := t + 8 * levelIndex va lvl
    let base := va / levelSize lvl
    if a ≥ dramSize || !s.chanOpen f (chanOf a) then (s, .inl stopMalformed)
    else
      let cached := (s.die die).wcache.find? (fun w => w.fn = f && w.level = lvl && w.base = base && w.table = t)
      match cached with
      | some w => s.walkFrom die f va attr fuel (lvl + 1) (Pte.mk w.entry.toNat).next
      | none =>
        match s.tableRead attr a with
        | .inl x => (s, .inl x)
        | .inr bs =>
          let e : Pte := ⟨leNat bs⟩
          if !e.valid then (s, .inl stopNotMapped)
          else if e.malformed lvl then (s, .inl stopMalformed)
          else if e.leaf then (s, .inr ⟨e, a, lvl⟩)
          else
            let s := s.setDie die (fun d =>
              { d with wcache := (d.wcache ++ [WalkEnt.mk f lvl base t (BitVec.ofNat 64 e.v)]).drop (d.wcache.length + 1 - 512) })
            s.walkFrom die f va attr fuel (lvl + 1) e.next

/-- A walk from PTROOT (R176, R179). -/
def State.walk (s : State) (die f va : Nat) : State × (Stop ⊕ Leaf) :=
  let root := (s.func f).reg 0
  if !bit root 0 then (s, .inl stopNotMapped)
  else if bits root 63 62 == 1 || bits root 63 62 == 3 then (s, .inl stopMalformed)
  else s.walkFrom die f va (bits root 63 62) 3 1 (bits root 56 21 * 2 ^ 21)

/-! ## TLBs (R184 to R186) -/

/-- Whether an entry holds the leaf of an address. -/
def TlbEnt.covers (e : TlbEnt) (f va : Nat) : Bool := e.ats.isNone && e.fn == f && decide (e.base ≤ va) && decide (va < e.base + e.size)

/-- Whether an entry holds the ATS result of an I/O virtual page. -/
def TlbEnt.atsOf (e : TlbEnt) (f page : Nat) : Bool := e.ats.isSome && e.fn == f && e.base == page * 65536

/-- A TLB with an entry written, the oldest entry leaving when it is full. -/
def tlbPut (t : List TlbEnt) (cap : Nat) (e : TlbEnt) : List TlbEnt :=
  let t := t.filter (fun x => !(x.fn == e.fn && x.base == e.base && x.ats.isSome == e.ats.isSome)) ++ [e]
  t.drop (t.length - cap)

/-- Fills the die TLB and the TLB of the unit that waits, or of no unit (an engine). -/
def State.fillTlb (s : State) (unit : Option Nat) (die : Nat) (e : TlbEnt) : State :=
  let s := s.setDie die (fun d => { d with tlb := tlbPut d.tlb 8192 e })
  match unit with
  | some u => s.setCore u (fun c => { c with tlb := tlbPut c.tlb 256 e })
  | none => s

/-- Whether a cached leaf serves an access; an entry with D = 0 is never used for a write (R179). -/
def TlbEnt.serves (e : TlbEnt) (f va : Nat) (w : Bool) : Bool := e.covers f va && (!w || (Pte.mk e.leaf.toNat).dirty)

/-- The cached leaf for an access: the core's, else the die's. -/
def State.tlbHit (s : State) (unit : Option Nat) (die f va : Nat) (w : Bool) : Option TlbEnt :=
  match unit with
  | some u => ((s.core u).tlb.find? (·.serves f va w)).or ((s.die die).tlb.find? (·.serves f va w))
  | none => (s.die die).tlb.find? (·.serves f va w)

/-- A core whose miss the die TLB serves takes the leaf over (R185). -/
def State.fillCore (s : State) (unit : Option Nat) (f va : Nat) (w : Bool) (e : TlbEnt) : State :=
  match unit with
  | some u => if (s.core u).tlb.any (·.serves f va w) then s else s.setCore u (fun c => { c with tlb := tlbPut c.tlb 256 e })
  | none => s

/-! ## Translation of one access (R175 step 6) -/

/-- What an access needs of its page. -/
structure Need where
  r : Bool := false
  w : Bool := false
  x : Bool := false
  home : Bool := false      -- performed at a device home: host memory refuses it (R205, R206, R266)
  quiet : Bool := false     -- a walk made without an access: sets no A or D and records no attribute (R179)
  line : Bool := false      -- an operation on a line, which no attribute is checked for (R207)
  who : Option Nat := none  -- the access, by which an ATS answer finds those that coalesced on it (R395): see `Ats.waits`

/-- A translated place: device DRAM, or a host page through ATS with the I/O virtual address. -/
inductive Xl where
  | dram (loc : Nat)
  | host (loc : Nat)
  | stop (x : Stop)
  | wait

/-- The permission check: the first missing right of R, W, X (R320). -/
def Pte.denied (e : Pte) (n : Need) : Option Stop :=
  if n.r && !e.r then some ⟨0x09, 0, false⟩
  else if n.w && !e.w then some ⟨0x09, 1, false⟩
  else if n.x && !e.x then some ⟨0x09, 2, false⟩
  else none

/-- Whether an access that has coalesced on a translation is still there to have its answer. -/
def State.coalesced (s : State) (who : Nat) : Bool :=
  if who % 2 = 0 then s.strands.any (fun e => e.2.pends.any (fun p => p.id == who / 2)) || s.dies.any (fun d => d.2.queue.any (fun c => c.id == who / 2))
  else (s.strand (who / 2)).any (fun st => (st.place .fetch).isSome)

/-- Sends a request of a function to the host: in RUN with T = 1 on its IDE stream, in CONFIG_UNLOCKED with T = 0 and on
a stream only if one has been set up (R389). -/
def State.sendHost (s : State) (f : Nat) (m : Bool → Bool → OutMsg) : State :=
  let run := (s.func f).ifState == 2
  s.send (m run (run || (s.func f).ide.isSome))

/-- How many ATS translations, and how many page requests, are outstanding in the module (R388). -/
def State.atsOpen (s : State) : Nat := (s.dies.map (fun d => (d.2.ats.filter (fun a => a.reply.isNone)).length)).sum
def State.priOpen (s : State) : Nat := (s.dies.map (fun d => (d.2.ats.filter Ats.pri).length)).sum

/-- The ATS and PRI side of a host page (R388, R389, R394, R395): the host address, a stop, or a wait. `pri` says
whether a page not present may wait for a page request (a core access) or ends with XLATE (an engine). A failure ends
every access that has coalesced on the translation; one that comes later asks again. -/
def State.atsPlace (s : State) (die f iova : Nat) (n : Need) (pri : Bool) : State × Xl :=
  let ifs := (s.func f).ifState
  if ifs != 0 && ifs != 2 then (s, .wait)
  else
    let page := iova / 65536
    let clear (s : State) : State := s.setDie die (fun d => { d with ats := d.ats.filter (fun x => !(x.fn == f && x.iova == page)) })
    let set (a : Ats) (s : State) : State := (clear s).setDie die (fun d => { d with ats := d.ats ++ [a] })
    let ask (s : State) : State × Xl :=
      if 4096 ≤ s.atsOpen then (s, .wait)
      else ((set { fn := f, iova := page, reply := none, pri := false, retried := false, waits := n.who.toList } s).sendHost f (.atsRequest f (page * 65536)), .wait)
    let use (s : State) (h : W64) (r w : Bool) : State × Xl :=
      if n.r && !r then (s, .stop ⟨0x09, 0, false⟩)
      else if n.w && !w then (s, .stop ⟨0x09, 1, false⟩)
      else (s, .host (hostLoc (h.toNat / 65536 * 65536 + iova % 65536)))
    match ((s.die die).tlb.find? (·.atsOf f page)).bind TlbEnt.ats with
    | some (h, r, w) => use s h r w
    | none =>
      match (s.die die).ats.find? (fun x => x.fn == f && x.iova == page) with
      | none => ask s
      | some a =>
        let left := a.waits.filter (fun b => some b != n.who && s.coalesced b)
        let mine : Bool := n.who.all a.waits.contains
        let joined : State := match n.who with
          | some b => if a.waits.contains b then s else set { a with waits := a.waits ++ [b] } s
          | none => s
        let fail (x : Stop) : State × Xl := (if left.isEmpty then clear s else set { a with waits := left } s, .stop x)
        let again : State × Xl := if left.isEmpty then ask s else (s, .wait)
        match a.reply with
        | none => (joined, .wait)
        | some .unsupported => if mine then fail ⟨0x08, 2, false⟩ else again
        | some .absent =>
          if a.pri then (if pri then (joined, .wait) else (set { a with waits := left } s, .stop ⟨0x08, 0, true⟩))
          else if !mine then again
          else if !pri then fail ⟨0x08, 0, true⟩
          else if a.retried then fail ⟨0x08, 2, false⟩
          else if 512 ≤ s.priOpen then (s, .wait)
          else ((set { a with pri := true } s).sendHost f (.pageRequest f (page * 65536)), .wait)
        | some (.page h r w) =>
          use ((clear s).setDie die (fun d => { d with tlb := tlbPut d.tlb 8192 ⟨f, page * 65536, 65536, 0, some (h, r, w)⟩ })) h r w

/-- SetAD of a leaf a walk has reached, and the fill of the TLBs with it (R179, R185). The write of the entry is one
of its row (R375); an exhausted channel discards it (R376). -/
def State.leafUsed (s : State) (unit : Option Nat) (die f va : Nat) (l : Leaf) (w : Bool) : State :=
  let e := l.entry
  let v := e.v + (if e.acc then 0 else 128) + (if w && !e.dirty then 256 else 0)
  let (s, v) : State × Nat :=
    if v = e.v then (s, v) else if s.exhausted l.addr then (s.exhaust l.addr, e.v) else (s.place l.addr (toLE 8 v), v)
  s.fillTlb unit die { fn := f, base := va / levelSize l.lvl * levelSize l.lvl, size := levelSize l.lvl, leaf := BitVec.ofNat 64 v }

/-- Whether the leaf of an address is one of host memory (R183): the path of an access to it is HOST though its ATS
translation is still asked for (R209). -/
def State.hostLeaf (s : State) (unit : Option Nat) (die f va : Nat) : Bool :=
  bit ((s.func f).reg 0) 0 && (match s.tlbHit unit die f va false with
    | some e => (Pte.mk e.leaf.toNat).host
    | none => match s.walk die f va with | (_, .inr l) => l.entry.host | _ => false)

/-- Translates an access of function f (R175 step 6): EN, a cached or walked leaf, permission, slice check,
granule attribute, for a host page ATS, then A and D. The slice check of a cached leaf was made at its walk (R184). -/
def State.translate (s : State) (unit : Option Nat) (die f va : Nat) (n : Need) (pri : Bool := true) : State × Xl :=
  if !bit ((s.func f).reg 0) 0 then (s, .stop stopNotMapped)
  else
    let w := n.w && !n.quiet
    let (s, got) : State × (Stop ⊕ (Leaf × Bool)) :=
      match s.tlbHit unit die f va w with
      | some e => (s.fillCore unit f va w e, .inr (Leaf.mk ⟨e.leaf.toNat⟩ 0 (if e.size = 65536 then 3 else if e.size = 2 ^ 21 then 2 else 1), true))
      | none =>
        match s.walk die f va with
        | (s, .inl x) => (s, .inl x)
        | (s, .inr l) => (s, .inr (l, false))
    match got with
    | .inl x => (s, if x.code == stopHeld.code then .wait else .stop x)
    | .inr (l, cached) =>
      let e := l.entry
      let pa := e.pa + va % levelSize l.lvl
      match e.denied n with
      | some x => (s, .stop x)
      | none =>
        let own := s.chanServes f (chanOf pa)
        if !e.host && (s.closing 3 (chanOf pa) || (!cached && (e.schk || f != 0) && s.chanSlice (chanOf pa) != f)) then
          (s, .stop ⟨0x0B, 0, false⟩)
        else if e.host && n.home then (s, .stop ⟨0x09, 3, false⟩)
        else
          let g := s.granule (granOf pa)
          if !e.host && own && !n.line && (match g.attr with | some a => a != e.attr | none => false) then (s, .stop ⟨0x0A, 0, false⟩)
          else
            let used (s : State) : State := if n.quiet || cached then s else s.leafUsed unit die f va l n.w
            if e.host then
              match s.atsPlace die f pa n pri with
              | (s, .host a) => (used s, .host a)
              | r => r
            else
              let s := if own && !n.quiet && g.attr.isNone then s.setGran (granOf pa) (fun g => { g with attr := some e.attr }) else s
              (used s, .dram pa)

end Sys2Proof.Machine
end

