-- ==== Sys2Proof/Machine/Access.lean ====
section
/-! DEFINITION. Resolving a tagged pointer (R173 to R175, R189 to R194), what a home does with an access
(R195 to R200, R203, R205), fault records in memory (R319, R323, R380, R385, R386), and the reads and
writes the hardware itself makes through a function's translation. -/
namespace Sys2Proof.Machine

/-! ## Checks at the home (step 7 of R175) -/

/-- The first rows of n bytes that refuse a write because their channel is exhausted (R376). -/
def State.exhaustedIn (s : State) (a n : Nat) : Bool :=
  (List.range ((a + n - 1) / 1024 + 1 - a / 1024)).any (fun i => s.exhausted (1024 * (a / 1024 + i)))

/-- Whether an L2 line that a function's accesses report as poisoned (R379) is among n bytes. -/
def badLine (f a n : Nat) (l : Nat × Nat) : Bool := l.1 == f && decide (a / 64 ≤ l.2) && decide (l.2 * 64 < a + n)

/-- Why the home refuses an access of function f to n bytes: a foreign slice, which refuses before any other check (R183,
R378), then a poisoned sector or L2 line or a write to an exhausted channel, then a LOST granule (step 7 of R175,
R198, R199, R376, R379). -/
def State.homeRefuses (s : State) (f a n : Nat) (w : Bool) : Option Stop :=
  if isDram a && !s.chanServes f (chanOf a) then some ⟨0x0B, 0, false⟩
  else if (sectorsOf a n).any s.poison.contains || (isDram a && (s.l2bad.any (badLine f a n) || (w && s.exhaustedIn a n))) then
    some ⟨0x0C, 0, false⟩
  else if isDram a && (s.granule (granOf a)).lost then some ⟨0x0D, 0, true⟩
  else none

/-- What an access refused for code `x` leaves: the L2 lines it reported are dropped (R379), and a channel whose last
EPOCH a write would pass is exhausted (R376). A foreign row changes in nothing (R378). -/
def State.afterRefusal (s : State) (f a n : Nat) (w : Bool) (x : Stop) : State :=
  if x.code != 0x0C then s
  else
    let s := { s with l2bad := s.l2bad.filter (fun l => !badLine f a n l) }
    if !w then s else (List.range ((a + n - 1) / 1024 + 1 - a / 1024)).foldl (fun s i => s.exhaust (1024 * (a / 1024 + i))) s

/-- How far into n bytes the first thing wrong lies: a poisoned sector or a bad line, else the first byte. -/
def State.badAt (s : State) (f a n : Nat) : Nat :=
  let ps := ((sectorsOf a n).filter s.poison.contains).map (· * 32)
  let ls := (s.l2bad.filter (badLine f a n)).map (fun l => l.2 * 64)
  match ps ++ ls with
    | [] => 0
    | x :: xs => xs.foldl min x - a

/-! ## The hardware's own accesses through a function's translation -/

/-- What an access of the hardware gives: a value, a stop at an address, or a wait for the host. -/
inductive Got (α : Type) where
  | ok (v : α)
  | stop (x : Stop) (va : Nat)
  | wait

/-- Reads n bytes at a virtual address of function f, page by page (`fuel` pages). -/
def State.fnReadFrom (s : State) (die f : Nat) : Nat → Nat → Nat → State × Got (List Byte)
  | 0, _, _ => (s, .ok [])
  | fuel + 1, va, n =>
    if n = 0 then (s, .ok []) else
    let here := min n (65536 - va % 65536)
    match s.translate none die f va { r := true } false with
    | (s, .stop x) => (s, .stop x va)
    | (s, .wait) => (s, .wait)
    | (s, .host a) =>
      match s.fnReadFrom die f fuel (va + here) (n - here) with
      | (s, .ok bs) => (s, .ok (s.homeRead a here ++ bs))
      | r => r
    | (s, .dram a) =>
      if s.homeHeld a then (s, .wait) else
      match s.homeRefuses f a here false with
      | some x => (s.afterRefusal f a here false x, .stop x (va + s.badAt f a here))
      | none =>
        match s.fnReadFrom die f fuel (va + here) (n - here) with
        | (s, .ok bs) => (s, .ok (s.homeRead a here ++ bs))
        | r => r

/-- Reads n bytes at a virtual address of function f; an address past 48 bits is ADDR_SPACE (step 3 of R175). -/
def State.fnRead (s : State) (die f va n : Nat) : State × Got (List Byte) :=
  if 2 ^ 48 < va + n then (s, .stop ⟨0x07, 0, false⟩ va) else s.fnReadFrom die f (n / 65536 + 2) va n

/-- Writes bytes at a virtual address of function f, page by page; nothing is written where a page stops. -/
def State.fnWriteFrom (s : State) (die f : Nat) : Nat → Nat → List Byte → State × Got Unit
  | 0, _, _ => (s, .ok ())
  | fuel + 1, va, bs =>
    if bs.isEmpty then (s, .ok ()) else
    let here := min bs.length (65536 - va % 65536)
    match s.translate none die f va { w := true } false with
    | (s, .stop x) => (s, .stop x va)
    | (s, .wait) => (s, .wait)
    | (s, .host a) => (s.place a (bs.take here)).fnWriteFrom die f fuel (va + here) (bs.drop here)
    | (s, .dram a) =>
      if s.homeHeld a then (s, .wait) else
      match s.homeRefuses f a here true with
      | some x => (s.afterRefusal f a here true x, .stop x (va + s.badAt f a here))
      | none => (s.place a (bs.take here)).fnWriteFrom die f fuel (va + here) (bs.drop here)

/-- Writes bytes at a virtual address of function f; an address past 48 bits is ADDR_SPACE (step 3 of R175). -/
def State.fnWrite (s : State) (die f va : Nat) (bs : List Byte) : State × Got Unit :=
  if 2 ^ 48 < va + bs.length then (s, .stop ⟨0x07, 0, false⟩ va) else s.fnWriteFrom die f (bs.length / 65536 + 2) va bs

/-- A little-endian value read at a virtual address. -/
def State.fnNat (s : State) (die f va n : Nat) : State × Got Nat :=
  match s.fnRead die f va n with
  | (s, .ok bs) => (s, .ok (leNat bs))
  | (s, .stop x a) => (s, .stop x a)
  | (s, .wait) => (s, .wait)

/-! ## Interrupts and fault records -/

/-- Sets an INTCAUSE bit; its MSI-X vector is raised when the bit rises (R390). -/
def State.cause (s : State) (f k : Nat) : State :=
  let was := (s.func f).intcause.getLsbD k
  let s := s.setFunc f (fun x => { x with intcause := x.intcause ||| (1#4 <<< k) })
  if was then s else s.send (.msix f k)

/-- A fault record laid out in 64 bytes (R319), or its redacted copy (R385). -/
def FaultRec.bytes (r : FaultRec) (red : Bool) : List Byte :=
  let b (c : Bool) (v : Nat) : Nat := if c then v else 0
  if red then
    toLE 1 r.code ++ toLE 1 64 ++ toLE 1 r.die ++ toLE 1 (16 * r.unit + r.unitno) ++ toLE 1 r.slice ++ toLE 3 0 ++
    toLE 4 r.node ++ toLE 48 0 ++ toLE 4 r.cycle.toNat
  else
    toLE 1 r.code ++ toLE 1 (b r.async 128 + b r.recov 32 + b r.nested 16 + r.ctx) ++ toLE 1 r.die ++
    toLE 1 (16 * r.unit + r.unitno) ++ toLE 1 r.slice ++ toLE 1 r.lane ++ toLE 1 r.wid ++ toLE 1 r.hdie ++
    toLE 4 r.node ++ toLE 3 r.wg ++ toLE 1 (16 * r.hop + r.hcore) ++ toLE 8 r.pc.toNat ++ toLE 8 r.resume.toNat ++
    toLE 8 r.addr.toNat ++ toLE 16 r.data.toNat ++ toLE 4 r.detail.toNat ++ toLE 4 r.cycle.toNat

/-- A fault record read back from 64 bytes of a save area, whose reserved bits are not looked at (R12,
notes/assumptions/62.md). -/
def FaultRec.ofBytes (bs : List Byte) : FaultRec :=
  let n (o k : Nat) : Nat := leNat ((bs.drop o).take k)
  { code := n 0 1, async := bit (n 1 1) 7, recov := bit (n 1 1) 5, nested := bit (n 1 1) 4, ctx := bits (n 1 1) 2 0
    die := n 2 1, unit := n 3 1 / 16, unitno := n 3 1 % 16, slice := bits (n 4 1) 6 0, lane := bits (n 5 1) 4 0
    wid := bits (n 6 1) 5 0, hdie := bits (n 7 1) 6 0, node := n 8 4, wg := n 12 3, hop := n 15 1 / 16
    hcore := n 15 1 % 16, pc := BitVec.ofNat 48 (n 16 8), resume := BitVec.ofNat 48 (n 24 8)
    addr := BitVec.ofNat 64 (n 32 8), data := BitVec.ofNat 128 (n 40 16), detail := BitVec.ofNat 32 (n 56 4)
    cycle := BitVec.ofNat 32 (n 60 4) }

/-- Counts a record that the host fault log does not take (R386). -/
def State.logDrop (s : State) : State := s.setMg (fun m => { m with hflDropped := min 65535 (m.hflDropped + 1) })

/-- Writes records to the host fault log, oldest first: one that finds the ring full is dropped, and where the page of
one is still being translated it and those behind it wait (R386). -/
def State.logWrite (s : State) : List (List Byte) → State
  | [] => s.setMg (fun m => { m with hflWait := [] })
  | b :: bs =>
    let m := s.mg
    if m.hflEntries < 2 || (m.hflTail + 1) % m.hflEntries == m.hflHead then s.logDrop.logWrite bs
    else
      match s.fnWrite 80 0 (m.hflBase.toNat + 64 * m.hflTail) b with
      | (s, .ok _) => ((s.setMg (fun m => { m with hflTail := (m.hflTail + 1) % m.hflEntries })).cause 0 2).logWrite bs
      | (t, .wait) => (s.takeWalks t).setMg (fun m => { m with hflWait := b :: bs })
      | (s, .stop _ _) => s.logDrop.logWrite bs

/-- Hands a record to the host fault log, redacted for a protected function (R380, R385, R386). -/
def State.hostLog (s : State) (f : Nat) (r : FaultRec) : State := s.logWrite (s.mg.hflWait ++ [r.bytes (s.slice f).prot])

/-- Hands a record to the function's fault queue; `who` is the strand and lane it parks (R323). -/
def State.queueRecord (s : State) (f : Nat) (r : FaultRec) (who : Option (Nat × Nat)) : State :=
  (s.setFunc f (fun x => { x with fqWait := x.fqWait ++ [r], fqWaitOf := x.fqWaitOf ++ [who] })).hostLog f r

/-! ## Resolution (R175 steps 1 to 6) -/

/-- Where an access goes: `fn` is the function whose bytes they are. `refused` is what this device answers as its own
peer (R193). -/
inductive Rs where
  | place (loc : Nat) (path : Path) (fn : Nat)
  | peer (dev off : Nat)
  | stop (x : Stop)
  | refused (x : Stop)
  | wait

/-- The width of the address field of a space (R174). -/
def spaceWidth (sp : Nat) : Nat := [48, 22, 22, 48, 40, 10].getD sp 48

/-- Whether a space is allowed in a context (R173). -/
def spaceOk (sp : Nat) (c : Ctx) : Bool :=
  match sp with
  | 2 => c != .S
  | 3 => c == .L || c == .F
  | 5 => c == .S
  | _ => decide (sp < 6)

/-- Whether the bits of a pointer that must be zero are zero (R173). -/
def spaceZeros (sp p : Nat) : Bool :=
  match sp with
  | 0 | 3 => bits p 59 48 == 0
  | 1 => bits p 49 22 == 0
  | 2 => bits p 40 22 == 0
  | 5 => bits p 29 10 == 0
  | _ => true

/-- Steps 1 to 4: the location as a tagged pointer, or the trap. -/
def locate (c : Ctx) (p : W64) (off : Int) (atomic : Bool) : Stop ⊕ W64 :=
  let sp := bits p.toNat 63 60
  let w := spaceWidth sp
  let a := (p.toNat % 2 ^ w : Int) + off
  if 6 ≤ sp then .inl ⟨0x07, 0, false⟩
  else if !spaceOk sp c || !spaceZeros sp p.toNat || (atomic && sp == 5) then .inl ⟨0x07, 0, false⟩
  else if a < 0 || (2 ^ w : Int) ≤ a then .inl ⟨0x07, 0, false⟩
  else .inr (BitVec.ofNat 64 (p.toNat - p.toNat % 2 ^ w + a.toNat))

/-- The home thread number of lane k of a strand (R57, R192). -/
def Strand.tid (st : Strand) (k : Nat) : Nat := 32 * st.wid + (match st.fg with | some g => g.lane | none => k)

/-- Step 5 for space 0x2: the SRAM place a group pointer names (R190). What raises ADDR_SPACE does so before the start gate
holds the access (notes/assumptions/62.md). -/
def State.groupPlace (s : State) (c : Cx) (p : Nat) (off size : Nat) : Rs :=
  let bad : Rs := .stop ⟨0x07, 0, false⟩
  let at_ (m : Cx) : Rs :=
    if m.hdr.sram < off + size then bad
    else if !m.resident then .wait
    else .place (sramLoc m.core (m.sramBase + off)) .core c.fn
  if bit p 41 then (if bits p 59 42 != 0 then bad else at_ c)
  else
    match (tget s.nodes c.node).bind (fun n => (n.groups[bits p 59 52]?).map (fun g => (n, g))) with
    | none => bad
    | some (n, g) =>
      if (g.kind != 1 && g.kind != 2) || !g.members.contains c.wg then bad
      else
        match g.members[bits p 51 42]? with
        | none => bad
        | some m =>
          if n.completed.contains m then bad
          else
            let of_ (w : Nat) : Option Cx := (s.cxs.find? (fun e => e.2.node == c.node && e.2.wg == w)).map (·.2)
            if n.hdr.sram < off + size then bad
            else if !g.members.all (fun w => n.completed.contains w || ((of_ w).map Cx.begun).getD false) then .wait
            else match of_ m with | some mc => at_ mc | none => .wait

/-- The entry of a peer table with the given size that satisfies a condition, lowest first (R403). -/
def State.peerEntry (s : State) (f : Nat) (base size : Nat) (ok : List Byte → Bool) : Nat → Nat → State × Option (List Byte)
  | 0, _ => (s, none)
  | fuel + 1, i =>
    match s.fnRead 80 f (base + i * size) size with
    | (s, .ok bs) => if ok bs then (s, some bs) else s.peerEntry f base size ok fuel (i + 1)
    | (s, _) => (s, none)

/-- What a peer access finds at the exporting function `pf` (R403): requester (device, function), offset. An entry
with a reserved bit set names nobody (R12, notes/assumptions/58.md). -/
def State.exportPlace (s : State) (sdev sfn pf off size : Nat) (n : Need) (atomic : Bool) (align : Bool := true) : State × Rs :=
  let reg := (s.func pf).reg 0x131
  let ok (bs : List Byte) : Bool :=
    let w := leNat (bs.take 4)
    bit w 31 && bits w 26 20 == sfn && bits w 19 0 == sdev &&
    bits w 30 27 == 0 && leNat ((bs.drop 4).take 1) < 8 && ((bs.drop 5).take 3).all (· == 0) && (bs.drop 24).all (· == 0)
  match s.peerEntry pf (bits reg 47 5 * 32) 32 ok (bits reg 63 48) 0 with
  | (s, none) => (s, .stop ⟨0x0B, 0, false⟩)
  | (s, some bs) =>
    let rights := leNat ((bs.drop 4).take 1)
    let base := leNat ((bs.drop 8).take 8)
    if leNat ((bs.drop 16).take 8) < off + size then (s, .stop ⟨0x07, 0, false⟩)
    else if (if atomic then !bit rights 2 else (n.r && !bit rights 0) || (n.w && !bit rights 1)) then (s, .stop ⟨0x09, 3, false⟩)
    else if bits base 63 48 != 0 || 2 ^ 48 ≤ base + off then (s, .stop ⟨0x07, 0, false⟩)
    else if align && (base + off) % size != 0 then (s, .stop ⟨0x06, 0, false⟩)
    else
      match s.translate none 80 pf (base + off) n with
      | (s, .dram a) => (s, .place a .peer pf)
      | (s, .host a) => (s, .place a .peer pf)
      | (s, .stop x) => (s, .stop x)
      | (s, .wait) => (s, .wait)

/-- Step 5 for space 0x4: the window of device `dev` at an offset, by the import table (R193, R403). An entry with a
reserved bit set names no device (R12, notes/assumptions/58.md). -/
def State.peerPlace (s : State) (f dev loc size : Nat) (n : Need) (atomic : Bool) (align : Bool := true) : State × Rs :=
  let reg := (s.func f).reg 0x130
  let ok (bs : List Byte) : Bool :=
    let w := leNat (bs.take 4)
    bit w 31 && bits w 19 0 == dev && bits w 30 27 == 0 && ((bs.drop 4).take 4).all (· == 0) && leNat ((bs.drop 8).take 8) < 2 ^ 40
  match s.peerEntry f (bits reg 47 5 * 32) 16 ok (bits reg 63 48) 0 with
  | (s, none) => (s, .stop ⟨0x0B, 0, false⟩)
  | (s, some bs) =>
    if leNat ((bs.drop 8).take 8) < loc + size then (s, .stop ⟨0x07, 0, false⟩)
    else if dev = Config.deviceId.toNat then
      match s.exportPlace dev f (bits (leNat (bs.take 4)) 26 20) loc size n atomic align with
      | (s, .stop x) => (s, .refused x)
      | r => r
    else (s, .peer dev loc)

/-- The virtual address of a place in lane k's private area, where it has one (R192). -/
def State.privVa (s : State) (st : Strand) (k loc size : Nat) : Option Nat :=
  match s.cx st.cx with
  | some c =>
    let S := 256 * c.privStride
    let va := c.privBase + (c.frame.getD 0) * 2048 * S + st.tid k * S + loc
    if S = 0 || S < loc + size || 2 ^ 48 ≤ va then none else some va
  | none => none

/-- Resolves an access of lane k (R175 steps 1 to 6): the location pointer, then where it goes. -/
def State.resolve (s : State) (st : Strand) (k : Nat) (p : W64) (off : Int) (size : Nat) (n : Need) (atomic : Bool)
    (align : Bool := true) : State × W64 × Rs :=
  match locate st.ctx p off atomic with
  | .inl x => (s, 0, .stop x)
  | .inr q =>
    let sp := bits q.toNat 63 60
    let loc := q.toNat % 2 ^ spaceWidth sp
    let unit := s.unitOf st
    let die := dieOfUnit unit
    let f := s.fnOf st
    let path : Path := if st.ctx == .S then .comb else .core
    if align && loc % size != 0 then (s, q, .stop ⟨0x06, 0, false⟩)
    else
      let virt (s : State) (va : Nat) : State × W64 × Rs :=
        match s.translate (some unit) die f va n with
        | (s, .dram a) => (s, q, .place a path f)
        | (s, .host a) => (s, q, .place a .host f)
        | (s, .stop x) => (s, q, .stop x)
        | (s, .wait) => (s, q, .wait)
      match sp with
      | 0 => virt s loc
      | 1 =>
        let core := 16 * bits q.toNat 59 54 + bits q.toNat 53 50
        if !s.coreOpen f core then (s, q, .stop ⟨0x0B, 0, false⟩) else (s, q, .place (sramLoc core loc) path f)
      | 2 =>
        match s.cx st.cx with
        | some c => (s, q, s.groupPlace c q.toNat loc size)
        | none => (s, q, .stop ⟨0x07, 0, false⟩)
      | 3 =>
        match s.privVa st k loc size with
        | some va => virt s va
        | none => (s, q, .stop ⟨0x07, 0, false⟩)
      | 4 =>
        let (s, r) := s.peerPlace f (bits q.toNat 59 40) loc size n atomic
        (s, q, r)
      | _ =>
        let chan := 64 * bits q.toNat 59 56 + bits q.toNat 55 50
        if 1024 ≤ unit && bits q.toNat 59 56 == (unit - 1024) / 16 then
          if !s.chanOpen f chan then (s, q, .stop ⟨0x0B, 0, false⟩)
          else (s, q, .place (rowLoc chan (bits q.toNat 45 30) (bits q.toNat 49 46) + loc) path f)
        else (s, q, .stop ⟨0x07, 0, false⟩)

/-! ## Shape of an access -/

/-- Whether an opcode is an access of memory. -/
def isMem (op : Nat) : Bool := (0x80 ≤ op && op ≤ 0x9C) || op == 0x7C || op == 0x7D
def isLoad (op : Nat) : Bool := (0x80 ≤ op && op ≤ 0x86) || op == 0x7C
def isStore (op : Nat) : Bool := (0x87 ≤ op && op ≤ 0x8B) || op == 0x7D
def isAcq (op : Nat) : Bool := op == 0x8C || op == 0x8D
def isRel (op : Nat) : Bool := op == 0x8E || op == 0x8F
def isAtom (op : Nat) : Bool := 0x90 ≤ op && op ≤ 0x99
def isRed (op : Nat) : Bool := op == 0x9A || op == 0x9B

/-- The bytes an access moves (R202, R204 to R206). -/
def accSize (op : Nat) (f : Rrr) : Nat :=
  match op with
  | 0x80 | 0x81 | 0x87 | 0x9C => 1
  | 0x82 | 0x83 | 0x88 => 2
  | 0x85 | 0x8A | 0x8D | 0x8F => 8
  | 0x86 | 0x8B => 16
  | 0x84 | 0x89 | 0x8C | 0x8E | 0x98 | 0x99 | 0x9B | 0x7C | 0x7D => 4
  | _ => if f.b.toNat = 3 then 8 else 4

/-- The byte offset of an access (R28): scaled offset6, and none for MEM-S and the atomics. -/
def accOff (op : Nat) (f : Rrr) : Int :=
  if op == 0x9C then f.b.toInt * 64
  else if (0x80 ≤ op && op ≤ 0x8B) || op == 0x7C || op == 0x7D then f.b.toInt * (accSize op f : Int)
  else 0

/-- What an access needs of its page (R175). -/
def accNeed (op : Nat) : Need :=
  if isAtom op then { r := true, w := true, home := op != 0x90 && op != 0x96 && op != 0x97 }
  else if isStore op || isRel op || isRed op then { w := true, home := op == 0x9B } else { r := true }

/-- A limb of `lld` or `lst` lies 4k bytes on from its chain's pointer (R170). -/
def Pend.limbOff (p : Pend) (k : Nat) : Int :=
  if p.op == 0x7C || p.op == 0x7D then (4 * (k % 2 ^ p.f.x.toNat) : Nat) else 0

/-- The lane whose pointer and thread number place lane k's access: the limb-0 lane of a chain (R170). -/
def Pend.addrLane (p : Pend) (k : Nat) : Nat :=
  if p.op == 0x7C || p.op == 0x7D then k - k % 2 ^ p.f.x.toNat else k

/-- The virtual address an access of lane k translates: one of space 0x0 or 0x3 that passes steps 1 to 5 of R175. -/
def State.accessVa (s : State) (st : Strand) (k : Nat) (p : W64) (off : Int) (size : Nat) (atomic : Bool) (align : Bool := true) : Option Nat :=
  match locate st.ctx p off atomic with
  | .inl _ => none
  | .inr q =>
    let loc := q.toNat % 2 ^ 48
    if align && loc % size != 0 then none
    else match bits q.toNat 63 60 with
      | 0 => some loc
      | 3 => s.privVa st k loc size
      | _ => none

/-- The virtual address lane c of a pending access translates. -/
def State.capVa (s : State) (st : Strand) (p : Pend) (c : Cap) : Option Nat :=
  s.accessVa st (p.addrLane c.lane) c.ptr (accOff p.op p.f + p.limbOff c.lane) (accSize p.op p.f) (isAtom p.op || isRed p.op) (p.op != 0x9C)

/-! ## Miss-buffer entries (R184 to R186) -/

/-- The misses a core has a miss-buffer entry for. -/
def State.coreMisses (s : State) (unit : Nat) : List Miss := (s.die (dieOfUnit unit)).misses.filter (fun m => m.cores.contains unit)

/-- Whether a core waits for the walk of a page. -/
def State.awaits (s : State) (unit f va : Nat) : Bool := (s.coreMisses unit).any (fun m => m.fn == f && m.page == va / 65536)

/-- A core joins the miss of a page, or makes it the die's newest (R185). -/
def joinMiss (ms : List Miss) (f page unit : Nat) : List Miss :=
  if ms.any (fun m => m.fn == f && m.page == page) then
    ms.map (fun m => if m.fn == f && m.page == page && !m.cores.contains unit then { m with cores := m.cores ++ [unit] } else m)
  else ms ++ [{ fn := f, page := page, cores := [unit] }]

/-- The core misses of an access of function f to some addresses: a miss-buffer entry for each new page, which the die
TLB may fill at once; none while the core's 64 do not suffice or, but for a replay, a strand stalled earlier waits for
one (R185, R186). -/
def State.takePages (s : State) (i unit f : Nat) (vas : List Nat) (w : Bool) (replay : Bool := false) : Option State :=
  let d := s.die (dieOfUnit unit)
  let miss := vas.filter (fun va => !(s.core unit).tlb.any (·.serves f va w) && !s.awaits unit f va)
  let pages := (miss.map (· / 65536)).eraseDups
  if pages.isEmpty then some s
  else if 64 < (s.coreMisses unit).length + pages.length || (!replay && s.queuesBehind i .miss (fun t => s.unitOf t == unit)) then none
  else
    some (miss.foldl (fun s va =>
      match d.tlb.find? (·.serves f va w) with
      | some e => s.fillCore (some unit) f va w e
      | none => s.setDie (dieOfUnit unit) (fun d => { d with misses := joinMiss d.misses f (va / 65536) unit })) s)

/-! ## Applying a write at its home -/

/-- The new value of an atomic (R205): old value t, operand v, and for `cas` the value to store. -/
def atomOp (op : Nat) (w : Nat) (t v vnew : Nat) : Nat :=
  match op with
  | 0x90 | 0x9A => (t + v) % 2 ^ w
  | 0x91 => if toSigned w t ≤ toSigned w v then t else v
  | 0x92 => if toSigned w t ≤ toSigned w v then v else t
  | 0x93 => t &&& v
  | 0x94 => t ||| v
  | 0x95 => t ^^^ v
  | 0x96 => v
  | 0x97 => if t = v then vnew else t
  | 0x98 | 0x9B => (fadd32 (w32 t) (w32 v)).toNat
  | _ => bf16.add 0 (t % 65536) (v % 65536) + 65536 * bf16.add 0 (t / 65536) (v / 65536)

/-- The record of a write discarded at its home or at a peer (R193, R200): who issued it and the data captured, as they
were at issue. -/
def State.asyncRecord (s : State) (w : Wr) (x : Stop) : FaultRec :=
  { w.frec.getD { code := 0, slice := w.fn, die := w.die, data := BitVec.ofNat 128 (leNat w.data) } with
    code := x.code, pc := w.pc, addr := w.ptr, detail := BitVec.ofNat 32 (x.detail + w.detail), async := true, recov := false, resume := 0
    cycle := BitVec.ofNat 32 (s.cycle w.die) }

/-- Applies a write at its home, or discards it with an ASYNC record (R193, R195, R198 to R200). A copy
engine's write of whole sectors clears their poison. A reduction takes its location's line from the issuing core (R197,
notes/assumptions/19.md). `err` is what a peer answers, 0 for success. -/
def State.applyWrite (s : State) (w : Wr) (err : Nat := 0) : State :=
  let s := { s with inflight := s.inflight.filter (fun v => v.id != w.id) }
  if isPeer w.loc then
    if err = 0 then s.peerSend 0 (peerDev w.loc) w.data
    else s.queueRecord w.fn (s.asyncRecord w ⟨err, 0, false⟩) none
  else
  let n := w.data.length
  let f := w.owner.getD w.fn
  let clean := if w.path == .copy then
      { s with poison := s.poison.filter (fun p => !(decide (w.loc ≤ 32 * p) && decide (32 * p + 32 ≤ w.loc + n))) } else s
  match clean.homeRefuses f w.loc n true with
  | some x => (s.afterRefusal f w.loc n true x).queueRecord w.fn (s.asyncRecord w x) none
  | none =>
    let s := clean
    let old := leNat (s.homeRead w.loc n)
    let data := match w.op with
      | .store => w.data
      | .add k => toLE n (atomOp 0x90 (8 * k) old (leNat w.data) 0)
      | .fadd => toLE n (atomOp 0x98 32 old (leNat w.data) 0)
    let s := { s with applied := s.applied ++ [{ w with op := .store, data := data, all := w.strong }] }
    let s := if w.op != .store && w.path == .core && isDram w.loc then s.refresh .core w.die (w.loc / 64 * 64) 64 else s
    (s.touch w.loc n).fold

end Sys2Proof.Machine
end

