-- ==== Sys2Proof/Machine/Slots.lean ====
section
/-! DEFINITION. The slots of foragers (R259 to R261, R268): those a unit shares, those home records reserve, arrival
queues, and forager statistics. -/
namespace Sys2Proof.Machine

/-! ## Slots (R259 to R261) -/

/-- The foragers in the slots of a unit, home records included, as strands. -/
def State.seated (s : State) (u : Nat) : List (Nat × Strand) :=
  s.strands.filter (fun e => match e.2.fg with | some g => g.unit == some u && !g.queued && g.slot.isSome | none => false)

/-- Those a unit hosts in slots that no home record reserves (R260). -/
def State.hosts (s : State) (u : Nat) : List (Nat × Strand) := (s.seated u).filter (fun e => s.homeUnit e.2 != u)

/-- The slots reserved by the resident workgroups of a core (R260). -/
def State.reservedSlots (s : State) (u : Nat) : Nat :=
  ((s.cxs.filter (fun e => e.2.core == u && e.2.resident)).map (fun e => e.2.hdr.forage)).sum

/-- Whether a forager finds a free slot it may take on a unit (R261). -/
def State.slotFree (s : State) (u fn : Nat) : Bool :=
  let hs := s.hosts u
  if u < 1024 then decide (s.reservedSlots u + hs.length < 128)
  else decide (hs.length < 64) && decide ((hs.filter (fun e => s.fnOf e.2 == fn)).length < (s.slice fn).fsq)

/-- The slot an accepted forager takes (R268): the lowest free one beside a forager of its function at its PC
when there is one, else the lowest free one. A home record is a slot of the same slot warps, taken in the same way
(notes/assumptions/61.md). -/
def State.slotFor (s : State) (u fn : Nat) (pc : Va) : Nat :=
  let hs := s.seated u
  let used (n : Nat) : Bool := hs.any (fun e => (e.2.fg.bind Forager.slot) == some n)
  let free := (List.range (if u < 1024 then 128 else 64)).filter (fun n => !used n)
  let mate (n : Nat) : Bool := hs.any (fun e => ((e.2.fg.bind Forager.slot).map (· / 32)) == some (n / 32) &&
    s.fnOf e.2 == fn && (e.2.lane 0).pc = pc)
  ((free.find? mate).or free.head?).getD 0

/-- A stack core. -/
def State.score (s : State) (u : Nat) : SCore := tgetD s.units u { arrivals := [], arrived := 0, turn := none, used := [] }

/-- The arrival queue of a unit, oldest first. -/
def State.arrivalsOf (s : State) (u : Nat) : List Nat := if u < 1024 then (s.core u).arrivals else (s.score u).arrivals

/-- Changes the arrival queue and the arrived count of a unit. -/
def State.setArrivals (s : State) (u : Nat) (q : List Nat → List Nat) (more : Word) : State :=
  if u < 1024 then s.setCore u (fun c => { c with arrivals := q c.arrivals, arrived := c.arrived + more })
  else { s with units := tset s.units u { s.score u with arrivals := q (s.score u).arrivals, arrived := (s.score u).arrived + more } }

/-- A stack core's arrived count after its reset (R273). -/
def State.clearArrived (s : State) (u : Nat) : State := { s with units := tset s.units u { s.score u with arrived := 0 } }

/-- Changes a forager's own state. -/
def State.updFg (s : State) (j : Nat) (f : Forager → Forager) : State := s.updStrand j (fun g => { g with fg := g.fg.map f })

/-- Puts a forager in a slot of a unit. -/
def State.seat (s : State) (j u : Nat) : State :=
  match s.strand j with
  | none => s
  | some g =>
    let n := s.slotFor u (s.fnOf g) (g.lane 0).pc
    s.updFg j (fun f => { f with unit := some u, slot := some n, queued := false, dest := none })

/-- Puts a forager in its home record on its home core: its host slot there, or where it stands recalled (R261, R269,
R277, R278). -/
def State.seatHome (s : State) (j : Nat) : State :=
  match s.strand j with
  | none => s
  | some g => (s.updFg j (fun f => { f with slot := none })).seat j (s.homeUnit g)

end Sys2Proof.Machine
end

