-- ==== Sys2Proof/Machine/RunEnd.lean ====
section
/-! DEFINITION. The end of a run (R64, R67, R68), rejoin (R75), barriers' waiters (R254, R256), safe points
(R76, R327), and the delivery of faults to the trap routine or the fault queue (R72, R161, R269, R321, R322). -/
namespace Sys2Proof.Machine

/-- The record of one lane's fault, by strand and lane. -/
def State.addFault (s : State) (i k : Nat) (r : FaultRec) : State :=
  s.updStrand i (fun st => st.setLane k (fun l => { l with flts := l.flts ++ [r] }))

/-! ## The deferred table (R68, R85) -/

/-- Whether a pending instruction is one that `trail f` names. -/
def Pend.named (p : Pend) (f : Rrr) : Bool :=
  !p.trailed && p.cnt != 0 &&
  [f.d.toNat, f.a.toNat, f.b.toNat].any (fun r => decide (r < 56) && decide (p.dst ≤ r) && decide (r < p.dst + p.cnt))

/-- Places the deferred entries of a `trail` once the table has room for all of them. -/
def Strand.placeTrail (st : Strand) : Strand :=
  match st.trail with
  | none => st
  | some f =>
    if 8 < (st.pends.filter (fun p => p.trailed || p.named f)).length then st
    else { st with pends := st.pends.map (fun p => if p.named f then { p with trailed := true } else p), trail := none }

/-! ## Away lanes -/

/-- The forager of lane k of strand i. -/
def State.foragerOf (s : State) (i k : Nat) : Option (Nat × Strand) :=
  s.strands.find? (fun e => match e.2.fg with | some g => g.home == i && g.lane == k | none => false)

/-- Whether lane k of strand i is parked by a fault, here or abroad (R72, R269). -/
def State.laneFaulted (s : State) (i k : Nat) (l : Lane) : Bool :=
  l.st == .fault ||
  (l.st == .away && (match s.foragerOf i k with
    | some (_, g) => (g.lane 0).st == .fault && ((g.fg.map Forager.recalled).getD false)
    | none => false))

/-- Recalls a faulted forager into its home record (R269, R278). -/
def State.recall (s : State) (i : Nat) : State :=
  (s.seatHome i).updFg i (fun g => { g with recalled := true })

/-! ## Safe points (R76, R327) -/

/-- The table index of a safe point at an address of a context (R51). -/
def Cx.safeIdx (c : Cx) (pc : Va) : Option Nat := c.hdr.safe.findIdx? (fun e => BitVec.ofNat 48 (c.image.toNat + e.1) = pc)

/-- The virtual address of a save area (R428). -/
def State.areaVa (s : State) (f slot : Nat) : Nat :=
  bits ((s.func f).reg 0x012) 47 16 * 65536 + slot * (((s.func f).reg 0x013) % 65536) * 65536

/-- The largest size of the sections before the software part (R326, R329). -/
def Header.maxSwOff (h : Header) (holds : Bool) : Nat :=
  let up (n : Nat) : Nat := (n + 63) / 64 * 64
  let nw := (h.wgSize + 31) / 32
  256 + nw * up (1552 + 129 * h.vregs) + up (16 * h.barriers) + 256 * 32 + up (64 * h.forage) +
  (if h.lead then up (528 + 8 * 256) else 0) + (if holds then 344896 else 64) + up h.sram

/-- Stops every thread of a context without a save, and completes nothing: its strands and it are gone. -/
def State.dropCx (s : State) (c : Nat) : State :=
  { s with
    strands := s.strands.filter (fun e => e.2.cx != c)
    insts := s.insts.filter (fun e => e.2.cx != c)
    cxs := tdel s.cxs c }

/-- Frees the save area a context holds. -/
def State.freeArea (s : State) (c : Nat) : State :=
  match s.cx c with
  | none => s
  | some cx =>
    match cx.saveSlot with
    | none => s
    | some n => (s.setFunc cx.fn (fun f => { f with saveAreas := f.saveAreas.erase n })).updCx c (fun x => { x with saveSlot := none })

/-- Writes v52 and v53 with the save area's pointer, tagged U, and starts a routine in every live lane. -/
def State.startRoutine (s : State) (i : Nat) (r : Routine) (pc : Va) (area : Nat) : State :=
  s.updStrand i fun st =>
    let m := st.liveMask
    let st := { st with vregs := (st.vregs.set 52 (.u (BitVec.ofNat 32 area))).set 53 (.u (BitVec.ofNat 32 (area / 2 ^ 32))), routine := r }
    st.mapLanes m (fun _ l => { l with pc := pc, st := .ready, act := none })

/-- Enters the save routine of safe point `idx`: SWOFF is written first (R327); where that fails the warp stands
and the save is abandoned (R428). -/
def State.enterSave (s : State) (i idx : Nat) : State :=
  match s.strand i with
  | none => s
  | some st =>
    match s.cx st.cx with
    | none => s
    | some c =>
      let area := c.area
      let holds := (s.core c.core).holder == some st.cx
      let e := c.hdr.safe.getD idx (0, 0, 0)
      let sw := c.swOff.getD (c.hdr.maxSwOff holds)
      match s.fnWrite (dieOfUnit c.core) c.fn (area + 60) (toLE 4 sw) with
      | (s, .ok _) => (s.updCx st.cx (fun y => { y with swOff := some sw })).startRoutine i (.save idx) (BitVec.ofNat 48 (c.image.toNat + e.2.1)) area
      | (s, .stop x a) => (s.updCx st.cx (fun y => { y with saveBad := some (x.code, x.detail, a) })).updStrand i (fun st => { st with saveForm := some 0 })
      | (s, .wait) => s

/-- Whether releasing the lanes `m` at one `.safe` instruction is a safe point to be taken, and its index: live lanes that
are released together from several listed `.safe` instructions take none (R76, notes/assumptions/58.md). -/
def State.safePoint (s : State) (st : Strand) (m : Word) (safe : Lane → Bool) : Option Nat :=
  match s.cx st.cx with
  | none => none
  | some c =>
    let pc := (st.lane (lowest m)).pc
    if st.ctx == .L && c.preempt.isSome && c.saveSlot.isSome && m == st.liveMask && st.routine == .none && st.saveForm.isNone &&
        (lanesOf m).all (fun k => safe (st.lane k) && (st.lane k).pc = pc) then
      c.safeIdx pc
    else none

/-! ## Releases -/

/-- Whether an act is a `.safe` one. -/
def EndAct.isSafe : Option EndAct → Bool
  | some (.join _ s) => s
  | some (.bar _ _ s) => s
  | _ => false

/-- Lanes of a strand acquire a released set of writes on paths `m` (R216, R221). -/
def Strand.acquire (st : Strand) (lanes : Word) (w : List (Nat × Path)) (m : BitVec 6) : Strand :=
  let r := onPaths w m
  if r.isEmpty then st else
  st.mapLanes lanes (fun _ l => { l with ord := { l.ord with hist := addWrites l.ord.hist r, must := addWrites l.ord.must r } })

/-- Lanes of a strand go on at the instruction after the one they wait at. -/
def Strand.goOn (st : Strand) (m : Word) : Strand := st.mapLanes m (fun _ l => { l with pc := l.pc + 4, st := .ready, act := none })

/-- The address at which a lane goes on if it is parked by a class-L fault of the run that just ended (R70). -/
def Strand.nextPc (st : Strand) (k : Nat) : Va :=
  match (st.lane k).act with
  | some (.join _ _) => (st.lane k).pc + 4
  | some .rti => if st.ctx.wide then (st.sreg 55).setWidth 48 else (st.pair k 54).setWidth 48
  | _ => (st.lane k).pc

/-- Parks the lane in which a fault of its ended run waits: its records get their RESUME (R70, R71). The lane of a thread
that is away keeps them until it is home. -/
def Strand.parkFaults (st : Strand) (k : Nat) : Strand :=
  let mine := (st.pends.flatMap Pend.flts).filter (fun r => r.lane == k)
  let left := st.pends.map (fun p => { p with flts := p.flts.filter (fun r => r.lane != k) })
  let st := { st with pends := left.filter (fun p => !(p.caps.isEmpty && p.flts.isEmpty)) }
  let resume := st.nextPc k
  st.setLane k (fun l =>
    let fs := l.flts ++ mine
    if fs.isEmpty || !l.live || l.st == .away then { l with flts := fs }
    else if l.st == .fault then { l with flts := l.flts ++ mine.map (fun r => { r with resume := (l.flts.getLast?.map FaultRec.resume).getD l.pc }) }
    else { l with st := .fault, act := none, pc := resume, flts := fs.map (fun r => { r with resume := resume }) })

/-- Parks the other lanes of a limb chain with the lane that holds the chain's record (R170). -/
def Strand.parkChains (st : Strand) : Strand :=
  let holder (k : Nat) : Option Nat :=
    (List.range st.lanes.length).find? (fun h => h != k && (st.lane h).st == .fault && (st.lane h).flts.any (·.parks k))
  (List.range st.lanes.length).foldl (fun st' k =>
    match holder k with
    | some h =>
      let resume := st'.nextPc k
      st'.setLane k (fun l => if l.live && (l.st == .ready || l.st == .fault) then { l with st := .fault, act := none, pc := resume, parkWith := some h } else l)
    | none => st') st

/-- Parks the lanes of a mask, and their chains, in which a returned deferred entry's fault waits (R71, R170). -/
def Strand.parkDue (st : Strand) (due : Nat → Bool) : Strand :=
  let n := st.lanes.length
  let ks := (List.range n).filter (fun h => st.pends.any (fun p => p.flts.any (fun r => r.lane == h && (List.range n).any (fun k => due k && r.parks k))))
  if ks.isEmpty then st else (ks.foldl Strand.parkFaults st).parkChains

/-- Takes the safe point at which the lanes of a strand were released, once its deferred table is empty (R73, R76), be
the full save forced meanwhile (R327). A request that is gone lets them go on; so does an entry that faults while the
table drains, whose lane parks at the next run's first instruction (R71, R73, notes/assumptions/61.md). -/
def State.evalSafe (s : State) (i : Nat) : State :=
  match s.strand i with
  | none => s
  | some st =>
    let m := st.savingMask
    if m = 0 then s else
    match s.cx st.cx, (st.lane (lowest m)).act with
    | some c, some (.toSave idx) =>
      if c.preempt.isNone || c.saveSlot.isNone then s.putStrand i (st.goOn m)
      else if st.pends.any (fun p => !p.caps.isEmpty) || st.saveForm.isSome then s
      else if st.pends.isEmpty then s.enterSave i idx
      else s.putStrand i ((st.goOn m).parkDue (fun _ => true))
    | _, _ => s

/-- Releases parked lanes at the instruction after the one they wait at, or takes the safe point there (R76). -/
def State.release (s : State) (i : Nat) (m : Word) (w : List (Nat × Path)) : State :=
  match s.strand i with
  | none => s
  | some st =>
    if m = 0 then s else
    match s.safePoint st m (fun l => EndAct.isSafe l.act) with
    | some idx => (s.putStrand i ((st.acquire m w 0x3F).mapLanes m (fun _ l => { l with st := .bar, act := some (.toSave idx) }))).evalSafe i
    | none => s.putStrand i ((st.acquire m w 0x3F).goOn m)

/-- The lanes parked at a join naming jN (R75). -/
def Strand.joinMask (st : Strand) (j : Nat) : Word :=
  st.laneMask (fun l => l.st == .join && (match l.act with | some (.join n _) => n == j | _ => false))

/-- Evaluates one rejoin mask: 0 nothing to do, 1 release, 2 deliver the warp's faults (R72, R75). -/
def State.joinState (s : State) (i : Nat) (st : Strand) (j : Nat) : Nat :=
  let at_ := st.joinMask j
  let m := st.js.getD j 0
  if at_ = 0 then 0
  else
    let ls := (List.range 32).filter (inMask m)
    let faulted := ls.any (fun k => s.laneFaulted i k (st.lane k))
    if ls.all (fun k => inMask at_ k || !(st.lane k).live || s.laneFaulted i k (st.lane k)) then (if faulted then 2 else 1) else 0

/-- Releases every join whose lanes have all arrived (R75). -/
def State.evalJoins (s : State) (i : Nat) : State :=
  (List.range 16).foldl (fun s j =>
    match s.strand i with
    | some st =>
      if st.ctx == .L && !st.runEnd && st.saveForm.isNone && s.joinState i st j == 1 then
        let m := st.joinMask j
        let w := (lanesOf m).foldl (fun h k => addWrites h (onPaths (st.lane k).ord.hist 1)) []
        s.release i m w
      else s
    | none => s) s

/-! ## Barrier waiters -/

/-- Releases the lanes of every strand of a context that wait at barrier n for the parity it has left, with
`code`/`detail` raised in each lane after the wait when the phase carried an error (R254, R256). A warp that is being
saved where it is parked waits at its instruction again after its restore (R327, R331). -/
def State.releaseBar (s : State) (c n : Nat) : State :=
  match s.cx c with
  | none => s
  | some cx =>
    let b := cx.bars.getD n {}
    cx.strands.foldl (fun s i =>
      match (s.strand i).filter (fun st => st.saveForm.isNone) with
      | none => s
      | some st =>
        let m := st.laneMask (fun l => l.st == .bar && (match l.act with
          | some (.bar j p _) => j == n && b.valid && !b.cnterr && b.phase != p | _ => false))
        let bad := st.laneMask (fun l => l.st == .bar && (match l.act with
          | some (.bar j _ _) => j == n && (b.cnterr || !b.valid) | _ => false))
        let s := s.updStrand i (fun st => st.mapLanes bad (fun k l => { l with
          st := .fault, act := none
          flts := l.flts ++ [{ s.mkFault st k 0x20 l.pc 0 0 0 false with resume := l.pc + 4 }] }))
        if b.lerr == 0 || m = 0 then s.release i m b.lcarry
        else
          s.updStrand i (fun st => (st.acquire m b.lcarry 0x3F).mapLanes m (fun k l => { l with
            st := .fault, act := none
            flts := l.flts ++ [{ s.mkFault st k 0x22 l.pc 0 0 (b.lerr + 65536 * n) false with resume := l.pc + 4 }] }))) s

/-- Completes a phase of barrier n if it is complete (R254). -/
def State.checkBar (s : State) (c n : Nat) : State :=
  match s.cx c with
  | none => s
  | some cx =>
    let b := cx.bars.getD n {}
    if b.valid && !b.cnterr && b.arrived == b.threads && b.pending == 0 then
      (s.updCx c (fun x => { x with bars := x.bars.set n { b with
        phase := !b.phase, lerr := b.err, err := 0, arrived := 0, pending := 0, lcarry := b.carry, carry := [] } })).releaseBar c n
    else s

/-! ## Delivery -/

/-- Whether a lane waits on a record already handed to the fault queue. -/
def State.waiting (s : State) (f i k : Nat) (l : Lane) : Bool := !l.posted.isEmpty || (s.func f).fqWaitOf.contains (some (i, k))

/-- Whether a trap goes to the kernel's trap routine (R321). `home` is the lane that would run it. -/
def Cx.routineTakes (c : Cx) (st : Strand) (home : Lane) (r : FaultRec) : Bool :=
  c.hdr.trap && (st.ctx == .L || (st.ctx == .S && c.hdr.comb)) && !r.recov && !r.nested && !home.intrap &&
  st.routine == .none && decide (56 ≤ c.hdr.vregs) &&
  (c.hdr.comb || !c.hdr.lead || decide (c.hdr.trapEnt < c.hdr.leadEnt))

/-- Delivers a record to the trap routine in lane k of strand i (R322), with its copy in the host fault log (R380); its
writes wait for no shared block (notes/assumptions/58.md). -/
def State.toRoutine (s : State) (i k : Nat) (c : Cx) (r : FaultRec) : State :=
  (s.hostLog c.fn r).updStrand i fun st =>
    let m := maskOf (· == k)
    let ret : W64 := r.resume.setWidth 64
    let code := BitVec.ofNat 32 r.code
    let st :=
      if st.ctx.wide then
        { st with sregs := (((st.sregs.set 50 r.addr).set 52 (code.setWidth 64)).set 53 (r.detail.setWidth 64)).set 55 ret }
      else
        let st := st.write64 m 50 (fun _ => r.addr) none
        let st := st.write32 m 52 (fun _ => code) none
        let st := st.write32 m 53 (fun _ => r.detail) none
        st.write64 m 54 (fun _ => ret) none
    st.setLane k (fun l => { l with
      pc := BitVec.ofNat 48 (c.image.toNat + c.hdr.trapEnt), st := .ready, act := none, intrap := true, flts := l.flts.erase r })

/-- Brings the forager strand j home to lane k of strand i: carried registers and predicates are written, the
lane is no longer away, and its home record is free (R271). The return is never refused: its write takes a shared
block at once even where none is free, as that of a trap entry does (R102, notes/assumptions/58.md). -/
def State.bringHome (s : State) (j i k : Nat) (pc : Va) : State :=
  match s.strand j, s.strand i with
  | some g, some _ =>
    match g.fg with
    | none => s
    | some fg =>
      let s := s.updStrand i fun st =>
        let m := maskOf (· == k)
        let st := (List.range fg.count).foldl (fun st n => st.write32 m (fg.first + n) (fun _ => (g.sreg (fg.first + n)).setWidth 32) none) st
        st.setLane k (fun l => { l with
          pc := pc, st := if l.flts.isEmpty then .ready else .fault, act := none, preds := (g.lane 0).preds
          flts := l.flts.map (fun r => { r with resume := pc }) ++ (g.lane 0).flts, ord := (g.lane 0).ord })
      { s with strands := tdel s.strands j }
  | _, _ => s

/-- Hands every record of lane k of strand i that goes to the fault queue of function f to it; the lane keeps those
of its trap routine. -/
def State.deliverQueued (s : State) (f i k : Nat) (queued : FaultRec → Bool) (l : Lane) : State :=
  (l.flts.filter queued).foldl (fun s r => s.queueRecord f r (some (i, k)))
    (s.updStrand i (fun st => st.setLane k (fun l => { l with flts := l.flts.filter (fun r => !queued r) })))

/-- Delivers the pending records of one faulted lane, here or of its forager, together (R72, R161, R321): the first that
the trap routine takes to it, and all others to the fault queue, since the lane is then inside a routine
(notes/assumptions/12.md). -/
def State.deliverLane (s : State) (i k : Nat) : State :=
  match s.strand i with
  | none => s
  | some st =>
    match s.cx st.cx with
    | none => s
    | some c =>
      let l := st.lane k
      let queued (r : FaultRec) : Bool := !c.routineTakes st l r
      if l.st == .fault then
        match l.flts.find? (fun r => !queued r) with
        | none => s.deliverQueued c.fn i k queued l
        | some r => (s.deliverQueued c.fn i k (fun x => queued x || x != r) l).toRoutine i k c r
      else if l.st == .away then
        match s.foragerOf i k with
        | none => s
        | some (j, g) =>
          let gl := g.lane 0
          if gl.st != .fault || !((g.fg.map Forager.recalled).getD false) then s
          else
            match gl.flts.find? (fun r => !queued r) with
            | none => s.deliverQueued c.fn j 0 queued gl
            | some r =>
              let s := s.deliverQueued c.fn j 0 queued gl
              if s.waiting c.fn j 0 gl then s else (s.bringHome j i k gl.pc).toRoutine i k c r
      else s

/-- Whether the pending faults of a strand are deliverable now (R72, R161). Whether the warp is bound is asked at the run's
end: after an `lfree` in the run R72 holds (notes/assumptions/61.md). -/
def State.deliverable (s : State) (i : Nat) (st : Strand) : Bool :=
  let fl (k : Nat) : Bool := s.laneFaulted i k (st.lane k)
  let ks := List.range st.lanes.length
  (!st.runEnd || st.trail.isSome) && ks.any fl &&
  ks.all (fun k => !fl k || st.pends.all (fun p => p.trailed || p.caps.all (·.lane != k))) &&
  (match st.ctx with
   | .L =>
     if st.bound then !st.runEnd && st.run.isNone
     else
       ks.all (fun k =>
         let l := st.lane k
         !l.live || fl k || l.st == .join || l.st == .bar || l.st == .waggle || (st.runEnd && st.trail.isSome && l.st == .ready)) ||
       (List.range 16).any (fun j => s.joinState i st j == 2)
   | _ => true)

/-- Delivers the pending faults of a strand when they are deliverable (R72). A forager's faults are delivered
with its home warp's (R269). -/
def State.deliver (s : State) (i : Nat) : State :=
  let i := match (s.strand i).bind Strand.fg with | some g => g.home | none => i
  match s.strand i with
  | none => s
  | some st =>
    if s.deliverable i st then (List.range st.lanes.length).foldl (fun s k => s.deliverLane i k) s else s

/-! ## What a lane does at the end of its run -/

/-- Whether an exiting lane still has a class-L instruction or deferred entry outstanding (R68, R82). -/
def Strand.exitWaits (st : Strand) (k : Nat) : Bool := st.pends.any (fun p => p.caps.any (·.lane == k))

/-- Whether a comb instance still has a command outstanding (R339). -/
def State.combWaits (s : State) (st : Strand) : Bool :=
  st.ctx == .S && (match tget s.insts st.cx with | some i => !i.outCmds.isEmpty | none => false)

/-- Makes a lane leave: it stops being live and leaves every rejoin mask (R74, R82). The last one takes the warp's
`lcr` with it (R159). -/
def Strand.exitLane (st : Strand) (k : Nat) : Strand :=
  let st := { (st.setLane k (fun l => { l with st := .exited, act := none })) with js := st.js.map (fun j => j &&& ~~~(1#32 <<< k)) }
  if st.ctx == .L && st.liveMask == 0 then { st with lcr := ⟨0, 0, 0, List.replicate 16 0⟩ } else st

/-- Performs one lane's act at its run's end. -/
def State.performAct (s : State) (i k : Nat) : State :=
  match s.strand i with
  | none => s
  | some st =>
    let l := st.lane k
    if l.st != .ready then s else
    match l.act with
    | none => s
    | some .exit => if st.exitWaits k || s.combWaits st then s else s.putStrand i (st.exitLane k)
    | some (.join j _) =>
      if inMask (st.js.getD j 0) k then s.putStrand i (st.setLane k (fun l => { l with st := .join }))
      else s.putStrand i (st.setLane k (fun l => { l with pc := l.pc + 4, act := none }))
    | some (.bar _ _ _) => s.putStrand i (st.setLane k (fun l => { l with st := .bar }))
    | some .mwait => s.putStrand i (st.setLane k (fun l => { l with st := .mwait }))
    | some .rti =>
      if l.intrap && st.routine == .none then
        s.putStrand i (st.setLane k (fun l => { l with
          pc := st.nextPc k, act := none, intrap := false
          st := if l.flts.isEmpty && !s.waiting (s.fnOf st) i k l then .ready else .fault
          flts := l.flts.map (fun r => { r with resume := st.nextPc k }) }))
      else s
    | some (.wpop _ _) | some (.toSave _) => s
    | some .home =>
      s.putStrand i { st with fg := st.fg.map (fun g => { g with unit := none, slot := none, queued := false, dest := none }) }

/-- A save routine that every live lane has left goes on with the save of R327; a restore routine continues
the warp as R331 gives. -/
def State.routineEnd (s : State) (i : Nat) : State :=
  match s.strand i with
  | none => s
  | some st =>
    let m := st.liveMask
    let all := m != 0 && (lanesOf m).all (fun k => (st.lane k).act == some .rti && (st.lane k).st == .ready)
    if !all || st.runEnd then s else
    match s.cx st.cx with
    | none => s
    | some c =>
      let at_ (idx : Nat) : Va := BitVec.ofNat 48 (c.image.toNat + (c.hdr.safe.getD idx (0, 0, 0)).1)
      match st.routine with
      | .none => s
      | .save idx =>
        s.putStrand i { (st.mapLanes m (fun _ l => { l with pc := at_ idx, act := none })) with
          routine := .none, saveForm := some 0 }
      | .restore pc =>
        let s := s.putStrand i { (st.mapLanes m (fun _ l => { l with pc := BitVec.ofNat 48 pc, act := none })) with routine := .none }
        if c.strands.any (fun j => match (s.strand j).map Strand.routine with | some (.restore _) => true | _ => false) then s
        else s.freeArea st.cx

/-- Lets the lanes of a strand that have come to barriers already completed, or not valid, go on (R256). -/
def State.evalBars (s : State) (i : Nat) : State :=
  match s.strand i with
  | none => s
  | some st =>
    if st.runEnd then s else
    (st.lanes.filterMap (fun l => match l.st, l.act with | .bar, some (.bar n _ _) => some n | _, _ => none)).eraseDups.foldl
      (fun s n => s.releaseBar st.cx n) s

/-- Ends the run of a strand once every class-L instruction it waits for has returned (R67): faults park
their lanes, then each lane does what it stopped for. Between runs a returned deferred entry's fault parks a lane that
exits, and every lane once a forced full save has stopped the warp (R71, R73). -/
def State.tryEnd (s : State) (i : Nat) : State :=
  match s.strand i with
  | none => s
  | some st =>
    let n := st.lanes.length
    let acts (s : State) : State := ((List.range n).foldl (fun s k => s.performAct i k) s).routineEnd i
    if st.runEnd then
      let st := st.placeTrail
      if st.trail.isSome || st.pends.any (fun p => !p.trailed) then s.putStrand i st
      else
        let st := ((List.range n).foldl Strand.parkFaults { st with
          runEnd := false, deferred := (st.pends.filter Pend.trailed).map Pend.dst }).parkChains
        let faulted := (st.lane 0).st == .fault && st.fg.isSome
        let s := acts (s.putStrand i st)
        if faulted then s.recall i else s
    else if st.run.isNone then
      let stopped := st.routine == .none && st.fg.isNone && ((s.cx st.cx).map Cx.forced).getD false
      acts (s.putStrand i (st.parkDue (fun k => stopped || ((st.lane k).act == some .exit && !st.exitWaits k))))
    else s

/-! ## The waggle queue (R79, R80, R89) -/

/-- The warps of a context that still have a live lane. -/
def State.liveWarps (s : State) (c : Cx) : List (Nat × Strand) :=
  s.strands.filter (fun e => c.strands.contains e.1 && e.2.ctx == .L && e.2.liveMask != 0)

/-- Frees the waggle entries that every warp with a live lane has popped (R80): entries of the reserve first (R79). -/
def State.wqTrim (s : State) (c : Nat) : State :=
  match s.cx c with
  | none => s
  | some cx =>
    let all := cx.freed + cx.waggle.length
    let upto := (s.liveWarps cx).foldl (fun m e => min m e.2.popped) all
    let n := upto - cx.freed
    if n = 0 then s else
    s.updCx c (fun x => { x with
      waggle := x.waggle.drop n, waggleOrd := x.waggleOrd.drop n, freed := upto
      wqShared := min x.wqShared (x.waggle.length - n) })

/-- Whether the lead thread of a context has exited. -/
def State.leadGone (s : State) (c : Cx) : Bool :=
  match c.lead.bind s.strand with
  | some st => (st.lane 0).st == .exited
  | none => true

/-- Completes the oldest group of a warp parked at `wq.pop` when an entry is there, or traps it when none can
come (R89). -/
def State.popGroup (s : State) (c i : Nat) : State :=
  match s.cx c, s.strand i with
  | some cx, some st =>
    let at_ (l : Lane) : Bool := l.st == .waggle
    match (List.range st.lanes.length).filter (fun k => at_ (st.lane k)) with
    | [] => s
    | k :: ks =>
      let h := ks.foldl (fun a b => if (st.lane b).lastRun < (st.lane a).lastRun then b else a) k
      let m := st.laneMask (fun l => at_ l && l.pc = (st.lane h).pc && l.lastRun == (st.lane h).lastRun)
      match cx.waggle[st.popped - cx.freed]? with
      | some v =>
        let (d, whole) := match (st.lane h).act with | some (.wpop d w) => (d, w) | _ => (0, false)
        let o := ((cx.waggleOrd[st.popped - cx.freed]?).map Ord.hist).getD []
        let st := (st.landed64 m d (fun _ => v) (if whole then some v else none)).acquire m o 1
        let st := st.mapLanes m (fun _ l => { l with pc := l.pc + 4, st := .ready, act := none })
        (s.putStrand i { st with popped := st.popped + 1 }).wqTrim c
      | none =>
        if s.leadGone cx then
          s.updStrand i (fun st => st.mapLanes m (fun k l => { l with
            st := .fault, act := none
            flts := l.flts ++ [{ s.mkFault st k 0x03 l.pc 0 0 0 false with resume := l.pc + 4 }] }))
        else s
  | _, _ => s

/-- Completes every group of a warp parked at `wq.pop` that can go on, in the order in which their pops issued. -/
def State.evalPop (s : State) (c i : Nat) : State := (List.range 32).foldl (fun s _ => s.popGroup c i) s

/-- Lets every warp of a context parked at `wq.pop` go on where it can. -/
def State.evalPops (s : State) (c : Nat) : State :=
  match s.cx c with
  | none => s
  | some cx => cx.strands.foldl (fun s i => (s.evalPop c i)) s

/-! ## `mwait` (R298) -/

/-- Releases the lanes of a strand parked at `mwait` whose matrix commands have all ended; a pending status
raises ENG_STATUS in them and is cleared. -/
def State.evalMwait (s : State) (i : Nat) : State :=
  match s.strand i with
  | none => s
  | some st =>
    let out (id : Nat) : Bool := s.cores.any (fun c => c.2.mqueue.any (fun m => m.id == id))
    let m := st.laneMask (fun l => l.st == .mwait && !l.waitCmds.any out)
    if m = 0 then s
    else
      match s.cx st.cx with
      | none => s
      | some c =>
        let st := st.mapLanes m (fun _ l => { l with ord := { l.ord with hist := addWrites l.ord.hist c.mwids } })
        if c.werr = 0 then s.putStrand i (st.mapLanes m (fun _ l => { l with pc := l.pc + 4, st := .ready, act := none, waitCmds := [] }))
        else
          (s.putStrand i (st.mapLanes m (fun k l => { l with
            st := .fault, act := none, waitCmds := []
            flts := l.flts ++ [{ s.mkFault st k 0x22 l.pc 0 0 (c.werr + 16 + c.wstep * 65536) false with resume := l.pc + 4 }] }))).updCx
            st.cx (fun c => { c with werr := 0, wstep := 0 })

/-! ## Settling -/

/-- The addresses that a replay translates: those of its accesses, or of a departure's next instruction and destination. -/
def State.replayVas (s : State) (st : Strand) (p : Pend) : List Nat :=
  if p.op == 0xA0 || p.op == 0xA1 then (p.pc.toNat + 4) :: p.caps.filterMap (fun c => s.accessVa st c.lane c.ptr 0 1 false)
  else if isMem p.op then p.caps.filterMap (s.capVa st p)
  else []

/-- Starts the replays of lane k of strand i that RETRY has let go, in program order: the next one waits while one
of the lane is under way or an earlier record is not acknowledged (R70, R211), while its core has no miss-buffer entry
for it (R185, R186), or until the context resumes that a forced save stops (R70, R328). A block that the instruction took
when it issued is taken anew, without a check (R101, notes/assumptions/61.md). -/
def State.launch (s : State) (f i k : Nat) : State :=
  match s.strand i, ((s.func f).replays.filter (fun r => r.strand == i && r.lane == k)).head? with
  | some st, some r =>
    if !r.go || (((s.cx st.cx).map Cx.forced).getD false && st.routine == .none) || st.pends.any (fun p => !p.trailed && p.caps.any (·.lane == k)) then s
    else
      match (if bit ((s.func f).reg 0) 0 then s.takePages i (s.unitOf st) f (s.replayVas st r.pend) (isMem r.pend.op && (accNeed r.pend.op).w) true
        else some s) with
      | none => s
      | some s =>
      let s := s.setFunc f (fun x => { x with replays := x.replays.erase r })
      { s.putStrand i { st with pends := st.pends ++ [{ r.pend with id := s.nextId }] } with nextId := s.nextId + 1 }
  | _, _ => s

/-- Starts the replays of every lane of a strand that may start. -/
def State.launchAll (s : State) (i : Nat) : State :=
  match s.strand i with
  | none => s
  | some st =>
    if (s.func (s.fnOf st)).replays.any (fun r => r.strand == i && r.go) then
      (List.range st.lanes.length).foldl (fun s k => s.launch (s.fnOf st) i k) s
    else s

/-- Lets the lanes of a mask that stand at a fault go on. -/
def State.unparkLanes (s : State) (i : Nat) (go : Strand → Nat → Bool) : State :=
  match s.strand i with
  | none => s
  | some st =>
    let m := maskOf (fun k => (st.lane k).st == .fault && go st k)
    if m = 0 then s else
    s.putStrand i { (st.mapLanes m (fun _ l => { l with st := .ready, parkWith := none })) with fg := st.fg.map (fun g => { g with recalled := false }) }

/-- Lets the lanes go on whose faulting instruction has been replayed and has returned (R70, R323), then those that
were parked with them (R170). -/
def State.unpark (s : State) (i : Nat) : State :=
  let f := ((s.strand i).map s.fnOf).getD 0
  let done (st : Strand) (k : Nat) : Bool :=
    let l := st.lane k
    l.flts.isEmpty && !s.waiting f i k l && !(s.func f).replays.any (fun r => r.strand == i && r.lane == k) && st.pends.all (fun p => p.caps.all (·.lane != k))
  let stands (st : Strand) (h : Nat) : Bool := (st.lane h).st == .fault || ((st.lane h).intrap && (st.lane h).live) ||
    st.pends.any (fun p => p.flts.any (·.lane == h))
  (s.unparkLanes i (fun st k => (st.lane k).parkWith.isNone && done st k)).unparkLanes i (fun st k =>
    match (st.lane k).parkWith with | some h => !stands st h && done st k | none => false)

/-- Whether a strand's context stands in a save area. -/
def State.savedAway (s : State) (i : Nat) : Bool :=
  match (s.strand i).bind (fun st => s.cx st.cx) with
  | some c => !c.resident
  | none => false

/-- Brings a strand to rest: its run's end, its joins, then the faults that are deliverable. In a saved context
only an acknowledged fault ends. -/
def State.settle (s : State) (i : Nat) : State :=
  if s.savedAway i then s.unpark i else
  let s := (s.launchAll i).updStrand i (fun st => if st.stall == some .entry then { st with stall := none } else st)
  let s := (((((s.tryEnd i).unpark i).evalBars i).evalMwait i).evalJoins i).evalSafe i
  let s : State := match s.strand i with
    | some st => if st.ctx == .D then s.evalPops st.cx else if st.ctx == .L then s.wqTrim st.cx else s
    | none => s
  s.deliver i

end Sys2Proof.Machine
end

