-- ==== Sys2Proof/Machine/Code.lean ====
section
/-! DEFINITION. Fetching the bytes of an instruction (R18, R20). -/
namespace Sys2Proof.Machine

/-- What a fetch gives: the bytes of one instruction, a fault, a wait for its page's walk or for the host, or for a
miss-buffer entry. -/
inductive Fetched where
  | bytes (bs : List Byte)
  | fault (x : Stop)
  | wait
  | full

/-- Fetches one halfword for lane k of strand i (R175 with size 2 and X). A strand that has waited for the walk of
its page takes no further miss-buffer entry for it. -/
def State.fetchHalf (s : State) (i : Nat) (st : Strand) (k : Nat) (pc : Va) : State × Fetched :=
  let unit := s.unitOf st
  let t := st.thread i k
  let page := pc.toNat / 65536
  match (if st.walked.contains page || !bit ((s.func (s.fnOf st)).reg 0) 0 then some s else s.takePages i unit (s.fnOf st) [pc.toNat] false) with
  | none => (s, .full)
  | some s =>
    if s.awaits unit (s.fnOf st) pc.toNat then
      (s.updStrand i (fun st => if st.walked.contains page then st else { st with walked := page :: st.walked }), .wait)
    else
      match s.resolve st k (pc.setWidth 64) 0 2 { x := true, who := some (2 * i + 1) } false with
      | (s, _, .place loc path fn) =>
        if s.homeHeld loc then (s, .wait) else
        match s.homeRefuses fn loc 2 false with
        | some x => (s.afterRefusal fn loc 2 false x, .fault x)
        | none =>
          match s.look (st.lane k).ord t.1 t.2 path (dieOfUnit unit) loc 2 with
          | some u => (u, .bytes (u.viewRead (st.lane k).ord t.1 t.2 path (dieOfUnit unit) loc 2))
          | none => (s, .wait)
      | (s, _, .stop x) => (s, .fault x)
      | (s, _, _) => (s, .wait)

/-- Fetches the instruction at an address: 2 bytes, or 4 where the first halfword's bit 0 is 1 (R18). -/
def State.fetch (s : State) (i : Nat) (st : Strand) (k : Nat) (pc : Va) : State × Fetched :=
  match s.fetchHalf i st k pc with
  | (s, .bytes lo) =>
    if bit (leNat lo) 0 then
      match s.fetchHalf i st k (pc + 2) with
      | (s, .bytes hi) => (s, .bytes (lo ++ hi))
      | r => r
    else (s, .bytes lo)
  | r => r

end Sys2Proof.Machine
end

