-- ==== Sys2Proof/Machine/Issue.lean ====
section
/-! DEFINITION. The issue of one instruction (R40, R60 to R66, R71): the checks before it, its effect, and
what follows it: addresses, the window and the end of its run. -/
namespace Sys2Proof.Machine

/-- Completes an instruction: addresses, window, run counts, and the end of the run where one of R64's
conditions holds. -/
def State.finish (o : Out) (x : Iss) : State :=
  let s := { o.s with freeCtr := o.s.freeCtr + 32 }
  match s.strand x.i with
  | none => s
  | some st =>
    let stay := maskOf (fun k => inMask x.m k && (st.lane k).st == .ready && (st.lane k).act.isNone)
    let st := st.mapLanes stay (fun k l =>
      { l with pc := match o.pcs.find? (·.1 == k) with
                     | some p => p.2
                     | none => x.pc + BitVec.ofNat 48 x.h.len })
    let one := (lanesOf stay).all (fun k => (st.lane k).pc = (st.lane (lowest stay)).pc)
    let n := x.st.runLen + 1
    let r : Run := ⟨stay, n, x.st.runLong + (if x.h.row.long then 1 else 0),
      (o.s.winEntry st o.dst :: (x.st.run.map Run.win).getD []).take 8⟩
    let s := s.putStrand x.i { st with
      run := some r, stall := none, waits := none, places := [], walked := [], fg := st.fg.map (fun g => { g with took := !o.pcs.isEmpty }) }
    if o.ends || x.h.s || n == 24 || !one || stay == 0 then s.markRunEnd x.i else s

/-- Parks the lanes of `m` that a deferred entry holds a fault for, at the instruction that interlocks on
it (R71), and those of a faulted limb chain with its record's lane (R170). -/
def State.parkTrailed (s : State) (i : Nat) (p : Pend) (m : Word) : State :=
  s.updStrand i fun st =>
    let ps := st.pends.map (fun q => if q.id = p.id then { q with flts := q.flts.filter (fun r => !inMask m r.lane) } else q)
    let st := { st with pends := ps.filter (fun q => !(q.caps.isEmpty && q.flts.isEmpty)) }
    let m := maskOf (fun k => inMask m k && p.flts.any (·.parks k))
    let st := st.mapLanes m (fun k l =>
      { l with st := .fault
               flts := l.flts ++ (p.flts.filter (·.lane = k)).map (fun r => { r with resume := l.pc })
               parkWith := (p.flts.find? (fun r => r.lane != k && r.parks k)).map FaultRec.lane })
    { st with run := st.run.map (fun r => { r with mask := r.mask &&& ~~~m }) }

/-- Settles a strand whose run has just ended. -/
def State.close (s : State) (i : Nat) : State :=
  match s.strand i with
  | some st => if st.runEnd then s.settle i else s
  | none => s

/-- Parks the lanes of a faulted deferred entry, ending a run they leave empty (R71). -/
def State.interlockFault (s : State) (i : Nat) (p : Pend) (m : Word) : State :=
  let s := s.parkTrailed i p m
  match s.strand i with
  | some st =>
    match st.run with
    | some r => if r.mask = 0 then (s.markRunEnd i).settle i else s
    | none => s.settle i
  | none => s

/-- Issues one instruction of the current strand: decode checks (R40), the end of a full run (R64), the
window check (R66), interlocks (R68, R71), a forager's unreadable registers (R263), then its effect. The
state is unchanged while it cannot issue. WINDOW is raised in every lane of the group, as R66 says, lanes whose guard
is false among them (notes/assumptions/58.md). -/
def State.issue (s : State) (h : Hd) (body : State → Iss → Act) : State :=
  match s.strand s.cur with
  | none => s
  | some st =>
    if !s.canIssue s.cur st then s else
    let m := st.group
    let pc := (st.lane (lowest m)).pc
    let x : Iss := ⟨s.cur, st, m, if h.row.guarded then st.guarded m h.f.x else m, pc, h⟩
    match s.decodeTrap st h with
    | some code => (State.finish ⟨s.trapLanes s.cur m code pc h.len 0, .nothing, [], false⟩ x).close s.cur
    | none =>
      if h.row.long && st.runLong == 8 then (s.markRunEnd s.cur).close s.cur
      else if (h.row.winReads h.f).any (fun n => st.runLen < n) then
        (State.finish ⟨s.trapLanes s.cur m 0x04 pc h.len 0, .nothing, [], false⟩ x).close s.cur
      else
        let rs := h.row.regs st.ctx.wide h.f ++ h.more
        match st.pends.find? (fun p => p.trailed && p.covers rs && p.flts.any (fun r => (lanesOf m).any r.parks)) with
        | some p => s.interlockFault s.cur p m
        | none =>
          if st.pends.any (fun p => p.trailed && !p.caps.isEmpty && p.covers rs) then s.setStall s.cur .entry else
          match st.fg.bind (fun g => (h.row.reads st.ctx.wide h.f).find? (fun r => x.g != 0 && !g.reads r)) with
          | some r => (State.finish ⟨s.trapLanes s.cur m 0x02 pc h.len (6 + r * 65536), .nothing, [], false⟩ x).close s.cur
          | none =>
            match body s x with
            | .stall k => s.setStall s.cur k
            | .hold t k => t.setStall s.cur k
            | .done o => if s.lacksBlock o.s s.cur then s.setStall s.cur .block else (State.finish o x).close s.cur

end Sys2Proof.Machine
end

