-- ==== Sys2Proof/Machine/Flags.lean ====
section
/-! DEFINITION. Conditions, predicates and the shape a result takes (R39, R95, R111, R113, R155). -/
namespace Sys2Proof.Machine

/-- The integer conditions of R39 on the unsigned values of `w`-bit operands. -/
def intCond (c w a b : Nat) : Bool :=
  let sa := toSigned w a; let sb := toSigned w b
  match c with
  | 0 => a == b
  | 1 => a != b
  | 2 => decide (sa < sb)
  | 3 => decide (sa ≤ sb)
  | 4 => decide (sb < sa)
  | 5 => decide (sb ≤ sa)
  | 6 => decide (a < b)
  | 7 => decide (a ≤ b)
  | 8 => decide (b < a)
  | _ => decide (b ≤ a)

/-- The logic operations of `pset` (R113). -/
def predOp (o : Nat) (a b : Bool) : Bool :=
  match o with
  | 0 => a && b
  | 1 => a || b
  | 2 => a != b
  | 3 => a && !b
  | 4 => a
  | 5 => !a
  | 6 => true
  | _ => false

/-- The form of a result whose sources are all U: the operation on the uniform values (R95, last row). -/
def uForm (op : Word → Word → Word) (a b : VReg) : Option VReg :=
  match a, b with
  | .u x, .u y => some (.u (op x y))
  | _, _ => none

/-- The form of a sum (R95). -/
def addForm (a b : VReg) : Option VReg :=
  match a, b with
  | .u x, .u y => some (.u (x + y))
  | .a p q, .u y => some (.a (p + y) q)
  | .u x, .a p q => some (.a (x + p) q)
  | .a p q, .a r t => some (.a (p + r) (q + t))
  | _, _ => none

/-- The form of a difference (R95). -/
def subForm (a b : VReg) : Option VReg :=
  match a, b with
  | .u x, .u y => some (.u (x - y))
  | .a p q, .u y => some (.a (p - y) q)
  | .a p q, .a r t => some (.a (p - r) (q - t))
  | _, _ => none

/-- The form of a product (R95). -/
def mulForm (a b : VReg) : Option VReg :=
  match a, b with
  | .u x, .u y => some (.u (x * y))
  | .a p q, .u y => some (.a (p * y) (q * y))
  | .u x, .a p q => some (.a (p * x) (q * x))
  | _, _ => none

/-- The form of a copy: that of the source, if it is U or A (R95). -/
def copyForm (a : VReg) : Option VReg :=
  match a with
  | .g _ => none
  | r => some r

/-- The `limb` flags of a chain: a bit of CARRY or OVF written (R155). -/
def setFlag (m : BitVec 16) (c : Nat) (v : Bool) : BitVec 16 :=
  if v then m ||| (1#16 <<< c) else m &&& ~~~(1#16 <<< c)

end Sys2Proof.Machine
end

