-- ==== Sys2Proof/Machine/Int.lean ====
section
/-! DEFINITION. The integer, logic, move and predicate instructions (R105 to R114), `rdsp` (R91) and
`lea.tp` (R208). -/
namespace Sys2Proof.Machine

/-- What one step of the machine answers. -/
abbrev Res := Host.Outcome State Fault Refusal

/-! ## Shared forms -/

/-- Writes a 32-bit result to d in the lanes whose guard is true. -/
def put32 (s : State) (x : Iss) (vals : Nat → Word) (whole : Option VReg) : Act :=
  .done { s := s.putStrand x.i (x.st.write32 x.g x.h.f.d.toNat vals whole), dst := .reg x.h.f.d.toNat }

/-- Writes a 64-bit result to d in the lanes whose guard is true. -/
def put64 (s : State) (x : Iss) (vals : Nat → W64) (whole : Option W64) : Act :=
  .done { s := s.putStrand x.i (x.st.write64 x.g x.h.f.d.toNat vals whole), dst := .reg x.h.f.d.toNat }

/-- Writes a predicate of d[2:0] in every lane of the group. -/
def putPred (s : State) (x : Iss) (vals : Nat → Bool) : Act :=
  .done { s := s.putStrand x.i (x.st.writePred x.m (x.h.f.d.toNat % 8) vals) }

/-- d ← op(a, b) (R106). -/
def bin32 (op : Word → Word → Word) (form : VReg → VReg → Option VReg) (s : State) (x : Iss) : Act :=
  put32 s x (fun k => op (x.st.src k x.h.f.a) (x.st.src k x.h.f.b)) (form (x.st.srcShape x.h.f.a) (x.st.srcShape x.h.f.b))

/-- d ← op(a) (R106). -/
def un32 (op : Word → Word) (s : State) (x : Iss) : Act :=
  put32 s x (fun k => op (x.st.src k x.h.f.a))
    (match x.st.srcShape x.h.f.a with | .u v => some (.u (op v)) | _ => none)

/-- d ← op(a, b, d): d is a third source (R106, R108). -/
def tri32 (op : Word → Word → Word → Word) (s : State) (x : Iss) : Act :=
  put32 s x (fun k => op (x.st.src k x.h.f.a) (x.st.src k x.h.f.b) (x.st.reg32 k x.h.f.d.toNat))
    (match x.st.srcShape x.h.f.a, x.st.srcShape x.h.f.b, x.st.vreg x.h.f.d.toNat with
     | .u a, .u b, .u d => some (.u (op a b d))
     | _, _, _ => none)

/-- d ← op(a, b) on pairs (R107). -/
def bin64 (op : W64 → W64 → W64) (s : State) (x : Iss) : Act :=
  let a := x.h.f.a.toNat; let b := x.h.f.b.toNat
  put64 s x (fun k => op (x.st.pair k a) (x.st.pair k b))
    (if x.st.pairU a && x.st.pairU b then
       some (op (x.st.pair (lowest x.g) a) (x.st.pair (lowest x.g) b)) else none)

/-- d ← op(a, immediate) (R109). -/
def imm32 (op : Word → Word → Word) (form : VReg → VReg → Option VReg) (imm : Word) (s : State) (x : Iss) : Act :=
  put32 s x (fun k => op (x.st.src k x.h.f.a) imm) (form (x.st.srcShape x.h.f.a) (.u imm))

/-! ## The operations (R106, R108) -/

def mulhS (a b : Word) : Word := BitVec.ofInt 32 (a.toInt * b.toInt / 2 ^ 32)
def mulhU (a b : Word) : Word := BitVec.ofNat 32 (a.toNat * b.toNat / 2 ^ 32)
def shlOp (a b : Word) : Word := if b.toNat < 32 then BitVec.ofNat 32 (a.toNat * 2 ^ b.toNat) else 0
def shrUOp (a b : Word) : Word := if b.toNat < 32 then BitVec.ofNat 32 (a.toNat / 2 ^ b.toNat) else 0
def shrSOp (a b : Word) : Word := a.sshiftRight (min b.toNat 31)
def minS (a b : Word) : Word := if a.toInt ≤ b.toInt then a else b
def maxS (a b : Word) : Word := if a.toInt ≤ b.toInt then b else a
def minU (a b : Word) : Word := if a.toNat ≤ b.toNat then a else b
def maxU (a b : Word) : Word := if a.toNat ≤ b.toNat then b else a
def popcOp (a : Word) : Word := BitVec.ofNat 32 ((List.range 32).countP (fun i => a.getLsbD i))
def clzOp (a : Word) : Word := BitVec.ofNat 32 (((List.range 32).reverse.takeWhile (fun i => !a.getLsbD i)).length)

/-- The position and clipped width of a bit field (R108). -/
def fieldOf (b : Word) : Nat × Nat :=
  let p := bits b.toNat 4 0
  (p, min (min (bits b.toNat 13 8) 32) (32 - p))

def bfxOp (a b : Word) : Word :=
  let (p, w) := fieldOf b
  if w = 0 then 0
  else
    let v := a.toNat / 2 ^ p % 2 ^ w
    if bit b.toNat 16 && bit v (w - 1) then BitVec.ofNat 32 (v + 2 ^ 32 - 2 ^ w) else BitVec.ofNat 32 v

def bfiOp (a b d : Word) : Word :=
  let (p, w) := fieldOf b
  let keep := d.toNat - (d.toNat / 2 ^ p % 2 ^ w) * 2 ^ p
  BitVec.ofNat 32 (keep + (a.toNat % 2 ^ w) * 2 ^ p)

/-! ## mov and the RRR family -/

/-- `mov` (R34, R106): when d and a name one register nothing is written. -/
def movBody (s : State) (x : Iss) : Act :=
  if x.h.f.d = x.h.f.a then .done { s := s, dst := .reg x.h.f.d.toNat }
  else put32 s x (fun k => x.st.src k x.h.f.a) (copyForm (x.st.srcShape x.h.f.a))

def execMov (f : Rrr) (s : State) : Res := .next (s.issue (hdOf 0x00 (rrrWord 0x00 f)) movBody)
def execIadd (f : Rrr) (s : State) : Res := .next (s.issue (hdOf 0x01 (rrrWord 0x01 f)) (bin32 (· + ·) addForm))
def execIsub (f : Rrr) (s : State) : Res := .next (s.issue (hdOf 0x02 (rrrWord 0x02 f)) (bin32 (· - ·) subForm))
def execImul (f : Rrr) (s : State) : Res := .next (s.issue (hdOf 0x03 (rrrWord 0x03 f)) (bin32 (· * ·) mulForm))
def execImulhS (f : Rrr) (s : State) : Res := .next (s.issue (hdOf 0x04 (rrrWord 0x04 f)) (bin32 mulhS (uForm mulhS)))
def execImulhU (f : Rrr) (s : State) : Res := .next (s.issue (hdOf 0x05 (rrrWord 0x05 f)) (bin32 mulhU (uForm mulhU)))
def execImad (f : Rrr) (s : State) : Res :=
  .next (s.issue (hdOf 0x06 (rrrWord 0x06 f)) (tri32 (fun a b d => a * b + d)))
def execIaddI64 (f : Rrr) (s : State) : Res := .next (s.issue (hdOf 0x07 (rrrWord 0x07 f)) (bin64 (· + ·)))
def execIsubI64 (f : Rrr) (s : State) : Res := .next (s.issue (hdOf 0x08 (rrrWord 0x08 f)) (bin64 (· - ·)))
def execImulI64 (f : Rrr) (s : State) : Res := .next (s.issue (hdOf 0x09 (rrrWord 0x09 f)) (bin64 (· * ·)))
def execBitAnd (f : Rrr) (s : State) : Res :=
  .next (s.issue (hdOf 0x0A (rrrWord 0x0A f)) (bin32 (· &&& ·) (uForm (· &&& ·))))
def execBitOr (f : Rrr) (s : State) : Res :=
  .next (s.issue (hdOf 0x0B (rrrWord 0x0B f)) (bin32 (· ||| ·) (uForm (· ||| ·))))
def execBitXor (f : Rrr) (s : State) : Res :=
  .next (s.issue (hdOf 0x0C (rrrWord 0x0C f)) (bin32 (· ^^^ ·) (uForm (· ^^^ ·))))
def execShl (f : Rrr) (s : State) : Res := .next (s.issue (hdOf 0x0D (rrrWord 0x0D f)) (bin32 shlOp (uForm shlOp)))
def execShrU (f : Rrr) (s : State) : Res := .next (s.issue (hdOf 0x0E (rrrWord 0x0E f)) (bin32 shrUOp (uForm shrUOp)))
def execShrS (f : Rrr) (s : State) : Res := .next (s.issue (hdOf 0x0F (rrrWord 0x0F f)) (bin32 shrSOp (uForm shrSOp)))
def execIminS (f : Rrr) (s : State) : Res := .next (s.issue (hdOf 0x10 (rrrWord 0x10 f)) (bin32 minS (uForm minS)))
def execImaxS (f : Rrr) (s : State) : Res := .next (s.issue (hdOf 0x11 (rrrWord 0x11 f)) (bin32 maxS (uForm maxS)))
def execIminU (f : Rrr) (s : State) : Res := .next (s.issue (hdOf 0x12 (rrrWord 0x12 f)) (bin32 minU (uForm minU)))
def execImaxU (f : Rrr) (s : State) : Res := .next (s.issue (hdOf 0x13 (rrrWord 0x13 f)) (bin32 maxU (uForm maxU)))
def execPopc (f : Rrr) (s : State) : Res := .next (s.issue (hdOf 0x14 (rrrWord 0x14 f)) (un32 popcOp))
def execClz (f : Rrr) (s : State) : Res := .next (s.issue (hdOf 0x15 (rrrWord 0x15 f)) (un32 clzOp))
def execBfx (f : Rrr) (s : State) : Res := .next (s.issue (hdOf 0x16 (rrrWord 0x16 f)) (bin32 bfxOp (uForm bfxOp)))
def execBfi (f : Rrr) (s : State) : Res := .next (s.issue (hdOf 0x17 (rrrWord 0x17 f)) (tri32 bfiOp))

/-! ## The 16-bit forms (R33) -/

def execMov16 (f : H16) (s : State) : Res := .next (s.issue (hdShort 0x00 (h16WideMov f)) movBody)
def execIadd16 (f : H16) (s : State) : Res := .next (s.issue (hdShort 0x01 (h16Wide f)) (bin32 (· + ·) addForm))
def execIsub16 (f : H16) (s : State) : Res := .next (s.issue (hdShort 0x02 (h16Wide f)) (bin32 (· - ·) subForm))
def execImul16 (f : H16) (s : State) : Res := .next (s.issue (hdShort 0x03 (h16Wide f)) (bin32 (· * ·) mulForm))
def execBitAnd16 (f : H16) (s : State) : Res := .next (s.issue (hdShort 0x0A (h16Wide f)) (bin32 (· &&& ·) (uForm (· &&& ·))))
def execBitOr16 (f : H16) (s : State) : Res := .next (s.issue (hdShort 0x0B (h16Wide f)) (bin32 (· ||| ·) (uForm (· ||| ·))))
def execBitXor16 (f : H16) (s : State) : Res := .next (s.issue (hdShort 0x0C (h16Wide f)) (bin32 (· ^^^ ·) (uForm (· ^^^ ·))))
def execShl16 (f : H16) (s : State) : Res := .next (s.issue (hdShort 0x0D (h16Wide f)) (bin32 shlOp (uForm shlOp)))
def execShrU16 (f : H16) (s : State) : Res := .next (s.issue (hdShort 0x0E (h16Wide f)) (bin32 shrUOp (uForm shrUOp)))
def execShrS16 (f : H16) (s : State) : Res := .next (s.issue (hdShort 0x0F (h16Wide f)) (bin32 shrSOp (uForm shrSOp)))
def execIminS16 (f : H16) (s : State) : Res := .next (s.issue (hdShort 0x10 (h16Wide f)) (bin32 minS (uForm minS)))
def execImaxS16 (f : H16) (s : State) : Res := .next (s.issue (hdShort 0x11 (h16Wide f)) (bin32 maxS (uForm maxS)))

/-! ## Compare, select, predicates -/

def execIcmp (f : Rrr) (s : State) : Res :=
  .next (s.issue (hdOf 0x18 (rrrWord 0x18 f)) fun s x =>
    putPred s x (fun k => intCond f.x.toNat 32 (x.st.src k f.a).toNat (x.st.src k f.b).toNat))

def execIcmpI64 (f : Rrr) (s : State) : Res :=
  .next (s.issue (hdOf 0x19 (rrrWord 0x19 f)) fun s x =>
    putPred s x (fun k => intCond f.x.toNat 64 (x.st.pair k f.a.toNat).toNat (x.st.pair k f.b.toNat).toNat))

/-- `isel` (R112): every lane of the group writes; a selector of one value copies its source's form. -/
def execIsel (f : Rrr) (s : State) : Res :=
  .next (s.issue (hdOf 0x1A (rrrWord 0x1A f)) fun s x =>
    let sel := x.st.guarded x.m f.x
    put32 s x (fun k => if inMask sel k then x.st.src k f.a else x.st.src k f.b)
      (if sel = x.m then copyForm (x.st.srcShape f.a)
       else if sel = 0 then copyForm (x.st.srcShape f.b) else none))

def execPset (f : Rrr) (s : State) : Res :=
  .next (s.issue (hdOf 0x25 (rrrWord 0x25 f)) fun s x =>
    putPred s x (fun k => predOp f.x.toNat (x.st.pred k f.a.toNat) (x.st.pred k f.b.toNat)))

/-- `predv` (R114): U when every writing lane holds the same predicates. -/
def execPredv (f : Rrr) (s : State) : Res :=
  .next (s.issue (hdOf 0x26 (rrrWord 0x26 f)) fun s x =>
    let p0 := (x.st.lane (lowest x.g)).preds
    put32 s x (fun k => ((x.st.lane k).preds).setWidth 32)
      (if (lanesOf x.g).all (fun k => (x.st.lane k).preds = p0) then some (.u (p0.setWidth 32)) else none))

def execVpred (f : Rrr) (s : State) : Res :=
  .next (s.issue (hdOf 0x27 (rrrWord 0x27 f)) fun s x =>
    .done { s := s.putStrand x.i (x.st.mapLanes x.g (fun k l => { l with preds := (x.st.src k f.a).setWidth 7 })) })

/-! ## Immediates (R109, R110) -/

def execMovi (f : Ri16) (s : State) : Res :=
  .next (s.issue (hdOf 0x1B (ri16Word 0x1B f)) fun s x =>
    put32 s x (fun _ => f.imm.signExtend 32) (some (.u (f.imm.signExtend 32))))

def movhiOp (imm : BitVec 16) (d : Word) : Word := imm ++ d.setWidth 16

def execMovhi (f : Ri16) (s : State) : Res :=
  .next (s.issue (hdOf 0x1C (ri16Word 0x1C f)) fun s x =>
    put32 s x (fun k => movhiOp f.imm (x.st.reg32 k f.d.toNat))
      (match x.st.vreg f.d.toNat with | .u v => some (.u (movhiOp f.imm v)) | _ => none))

def execIaddi (f : Rri) (s : State) : Res :=
  .next (s.issue (hdOf 0x1D (rriWord 0x1D f)) (imm32 (· + ·) addForm (f.imm.signExtend 32)))
def execAndi (f : Rri) (s : State) : Res :=
  .next (s.issue (hdOf 0x1E (rriWord 0x1E f)) (imm32 (· &&& ·) (uForm (· &&& ·)) (f.imm.setWidth 32)))
def execOri (f : Rri) (s : State) : Res :=
  .next (s.issue (hdOf 0x1F (rriWord 0x1F f)) (imm32 (· ||| ·) (uForm (· ||| ·)) (f.imm.setWidth 32)))
def execShli (f : Rri) (s : State) : Res :=
  .next (s.issue (hdOf 0x20 (rriWord 0x20 f)) (imm32 shlOp (uForm shlOp) (f.imm.setWidth 32)))
def execShriU (f : Rri) (s : State) : Res :=
  .next (s.issue (hdOf 0x21 (rriWord 0x21 f)) (imm32 shrUOp (uForm shrUOp) (f.imm.setWidth 32)))
def execShriS (f : Rri) (s : State) : Res :=
  .next (s.issue (hdOf 0x22 (rriWord 0x22 f)) (imm32 shrSOp (uForm shrSOp) (f.imm.setWidth 32)))

/-! ## Special values (R91) -/

/-- The special value a selector names: its form in lane code and its 64-bit value elsewhere. -/
def State.special (s : State) (st : Strand) (sel : Nat) : VReg × W64 :=
  let c := s.cx st.cx
  let u := s.unitOf st
  let uni (v : Nat) : VReg × W64 := (.u (BitVec.ofNat 32 v), BitVec.ofNat 64 v)
  let homeLane := (st.fg.map Forager.lane).getD 0
  let scalar := st.ctx == .D || st.ctx == .S
  match sel with
  | 0 => if st.ctx == .L then (.a 0 1, 0) else uni homeLane
  | 1 => if st.ctx == .L then (.a (BitVec.ofNat 32 (32 * st.wid)) 1, 0)
         else if scalar then uni 0 else uni (32 * st.wid + homeLane)
  | 2 => if scalar then uni 0 else uni st.wid
  | 3 => if st.ctx == .S then uni 0 else uni ((c.map Cx.wg).getD 0)
  | 4 => uni (u % 16)
  | 5 => uni (dieOfUnit u)
  | 6 => let h := Config.nodeHandle ((c.map Cx.node).getD 0); (.u h, h.setWidth 64)
  | 7 => uni ((c.map Cx.slice).getD 0)
  | _ => uni (s.cycle (dieOfUnit u))

def execRdsp (f : Rrr) (s : State) : Res :=
  .next (s.issue (hdOf 0x24 (rrrWord 0x24 f)) fun s x =>
    let v := s.special x.st f.x.toNat
    if x.st.ctx.wide then put64 s x (fun _ => v.2) none
    else put32 s x (fun k => if x.st.ctx == .L then v.1.read k else v.2.setWidth 32) (some v.1))

/-! ## Tagged pointers (R208) -/

/-- The pointer `lea.tp` composes from a and b, or none when a source bit outside its fields is set. -/
def leaTp (sp : Nat) (a : W64) (b : Word) : Option W64 :=
  let av := a.toNat; let bv := b.toNat
  let mk (mid lo : Nat) : Option W64 := some (BitVec.ofNat 64 (sp * 2 ^ 60 + mid + lo))
  match sp with
  | 0 | 3 => if av < 2 ^ 48 then mk 0 av else none
  | 1 => if av < 2 ^ 22 && bv < 2 ^ 10 then mk (bv * 2 ^ 50) av else none
  | 2 => if av < 2 ^ 22 && bv < 2 ^ 19 then
           mk (bits bv 7 0 * 2 ^ 52 + bits bv 17 8 * 2 ^ 42 + bits bv 18 18 * 2 ^ 41) av else none
  | 4 => if av < 2 ^ 40 && bv < 2 ^ 20 then mk (bv * 2 ^ 40) av else none
  | 5 => if av < 2 ^ 46 && bits av 29 10 = 0 && bv < 2 ^ 14 then
           mk (bits bv 13 10 * 2 ^ 56 + bits bv 9 4 * 2 ^ 50 + bits bv 3 0 * 2 ^ 46) av else none
  | _ => none

/-- Takes a precise trap in some lanes of the group and goes on in the others: the state, the strand and
the lanes that remain. -/
def trapSome (s : State) (x : Iss) (bad : Word) (code detail : Nat) (addr : Nat → W64 := fun _ => 0) :
    State × Iss :=
  if bad = 0 then (s, x) else
  let s := s.trapLanes x.i bad code x.pc x.h.len detail addr
  (s, { x with st := (s.strand x.i).getD x.st, g := x.g &&& ~~~bad })

def execLeaTp (f : Rrr) (s : State) : Res :=
  .next (s.issue (hdOf 0x23 (rrrWord 0x23 f)) fun s x =>
    let p := fun k => leaTp f.x.toNat (x.st.pair k f.a.toNat) (x.st.src k f.b)
    let u := x.st.pairU f.a.toNat && ((f.x = 0 || f.x = 3) || (x.st.srcShape f.b).tag = 0)
    let (s, x) := trapSome s x (maskOf (fun k => inMask x.g k && (p k).isNone)) 0x07 0
    put64 s x (fun k => (p k).getD 0) (if u then p (lowest x.g) else none))

end Sys2Proof.Machine
end

