-- ==== Sys2Proof/Machine/Cross.lean ====
section
/-! DEFINITION. The cross-lane instructions (R115 to R121). -/
namespace Sys2Proof.Machine

/-- What a lane named as a source holds, and whether it is valid (R115). -/
def Strand.sourceLane (st : Strand) (n k : Nat) : Word × Bool :=
  if (st.lane k).live then ((st.vreg n).read k, true) else (0, false)

/-- `shape` (R118). -/
def execShape (f : Rrr) (s : State) : Res :=
  .next (s.issue (hdOf 0x28 (rrrWord 0x28 f)) fun s x =>
    let t := w32 (x.st.vreg f.a.toNat).tag
    put32 s x (fun _ => t) (some (.u t)))

/-- `unify` (R119). With a lane away, the register becomes U as the effect's own lines say, and what it holds for the away
lane with it (notes/assumptions/61.md). -/
def execUnify (f : Rrr) (s : State) : Res :=
  .next (s.issue (hdOf 0x29 (rrrWord 0x29 f)) fun s x =>
    let v := x.st.reg32 (lowest x.m) f.a.toNat
    let eq := (lanesOf x.m).all (fun k => x.st.reg32 k f.a.toNat = v)
    let st := x.st.writePred x.m (f.d.toNat % 8) (fun _ => eq)
    let st := if eq && x.m = x.st.wholeMask then { st with vregs := st.vregs.set f.a.toNat (.u v) } else st
    .done { s := s.putStrand x.i st })

/-- The source lane of lane k and whether it is in range, by kind (R116): 0 from, 1 back, 2 fwd, 3 flip. -/
def xlaneSource (kind : Nat) (wrap : Bool) (k : Nat) (b : Word) : Nat × Bool :=
  let n := b.toNat
  match kind with
  | 0 => (n % 32, true)
  | 1 => if wrap then ((k + 32 - n % 32) % 32, true) else (k - n, decide (n ≤ k))
  | 2 => if wrap then ((k + n % 32) % 32, true) else (k + n, decide (k + n ≤ 31))
  | _ => (Nat.xor k (n % 32), true)

/-- The `xlane` family (R116). -/
def xlane (kind : Nat) (s : State) (x : Iss) : Act :=
  let f := x.h.f
  let src (k : Nat) := xlaneSource kind (8 ≤ f.x.toNat) k (x.st.src k f.b)
  let res (k : Nat) : Word × Bool :=
    if (src k).2 then x.st.sourceLane f.a.toNat (src k).1 else (x.st.reg32 k f.a.toNat, false)
  let whole := match x.st.vreg f.a.toNat with
    | .u v => if (lanesOf x.m).all (fun k => (src k).2 && (res k).2) then some (VReg.u v) else none
    | _ => none
  let st := x.st.write32 x.m f.d.toNat (fun k => (res k).1) whole
  let st := if f.x.toNat % 8 = 7 then st else st.writePred x.m (f.x.toNat % 8) (fun k => (res k).2)
  .done { s := s.putStrand x.i st, dst := .reg f.d.toNat }

def execXlaneFrom (f : Rrr) (s : State) : Res := .next (s.issue (hdOf 0x2A (rrrWord 0x2A f)) (xlane 0))
def execXlaneBack (f : Rrr) (s : State) : Res := .next (s.issue (hdOf 0x2B (rrrWord 0x2B f)) (xlane 1))
def execXlaneFwd (f : Rrr) (s : State) : Res := .next (s.issue (hdOf 0x2C (rrrWord 0x2C f)) (xlane 2))
def execXlaneFlip (f : Rrr) (s : State) : Res := .next (s.issue (hdOf 0x2D (rrrWord 0x2D f)) (xlane 3))

/-- `bcast` (R117). -/
def execBcast (f : Rrr) (s : State) : Res :=
  .next (s.issue (hdOf 0x2E (rrrWord 0x2E f)) fun s x =>
    let v := (x.st.sourceLane f.a.toNat ((x.st.src (lowest x.g) f.b).toNat % 32)).1
    put32 s x (fun _ => v) (some (.u v)))

/-- KeyEq of R120. -/
def keyEq (feq : Bool) (j k : Nat) (a b : Word) : Bool :=
  if feq then
    (if isNan32 a || isNan32 b then j == k
     else a == b || (a.toNat % 2 ^ 31 == 0 && b.toNat % 2 ^ 31 == 0))
  else a == b

/-- The key set of lane k in the group (R120). -/
def keySet (x : Iss) (feq : Bool) (k : Nat) : Word :=
  maskOf (fun j => inMask x.m j &&
    keyEq feq j k (x.st.reg32 j x.h.f.a.toNat) (x.st.reg32 k x.h.f.a.toNat))

/-- `match` (R120). -/
def execMatchKey (f : Rrr) (s : State) : Res :=
  .next (s.issue (hdOf 0x2F (rrrWord 0x2F f)) fun s x =>
    put32 s x (fun k => keySet x (bit f.x.toNat 0) k) none)

/-- Combine of R121. -/
def mredOp (o : Nat) (t v : Word) : Word :=
  match o with
  | 0 => t + v
  | 1 => fadd32 t v
  | 2 => maxS t v
  | _ => minS t v

/-- `mred` (R121): the total of each key set in its leader, and the leaders' mask. -/
def execMred (f : Rrr) (s : State) : Res :=
  .next (s.issue (hdOf 0x30 (rrrWord 0x30 f)) fun s x =>
    let feq := bit f.x.toNat 0
    let lead (k : Nat) := lowest (keySet x feq k)
    let total (k : Nat) : Word :=
      match lanesOf (keySet x feq k) with
      | [] => 0
      | j :: js => js.foldl (fun t i => mredOp (f.x.toNat / 2 % 4) t (x.st.src i f.b)) (x.st.src j f.b)
    let leaders := maskOf (fun k => inMask x.m k && lead k == k)
    let st := x.st.write32 x.m f.d.toNat (fun k => if lead k = k then total k else 0) none
    let st := st.write32 x.m (f.d.toNat + 1) (fun _ => leaders) (some (.u leaders))
    .done { s := s.putStrand x.i st, dst := .reg f.d.toNat })

end Sys2Proof.Machine
end

