-- ==== Sys2Proof/Machine/FloatOps.lean ====
section
/-! DEFINITION. The floating-point lane instructions (R134, R140 to R153). The SFU functions, which are
class L, capture their sources here and return in `CLASS_L_RESULT_LAND`. -/
namespace Sys2Proof.Machine

def execFadd (f : Rrr) (s : State) : Res := .next (s.issue (hdOf 0x40 (rrrWord 0x40 f)) (bin32 fadd32 (uForm fadd32)))
def execFsub (f : Rrr) (s : State) : Res := .next (s.issue (hdOf 0x41 (rrrWord 0x41 f)) (bin32 fsub32 (uForm fsub32)))
def execFmul (f : Rrr) (s : State) : Res := .next (s.issue (hdOf 0x42 (rrrWord 0x42 f)) (bin32 fmul32 (uForm fmul32)))
def execFfma (f : Rrr) (s : State) : Res := .next (s.issue (hdOf 0x43 (rrrWord 0x43 f)) (tri32 ffma32))
def execFmin (f : Rrr) (s : State) : Res := .next (s.issue (hdOf 0x45 (rrrWord 0x45 f)) (bin32 fminOp (uForm fminOp)))
def execFmax (f : Rrr) (s : State) : Res := .next (s.issue (hdOf 0x46 (rrrWord 0x46 f)) (bin32 fmaxOp (uForm fmaxOp)))
def execFabs (f : Rrr) (s : State) : Res := .next (s.issue (hdOf 0x47 (rrrWord 0x47 f)) (un32 (· &&& 0x7FFFFFFF#32)))
def execFneg (f : Rrr) (s : State) : Res := .next (s.issue (hdOf 0x48 (rrrWord 0x48 f)) (un32 (· ^^^ 0x80000000#32)))
def execFadd16 (f : H16) (s : State) : Res := .next (s.issue (hdShort 0x40 (h16Wide f)) (bin32 fadd32 (uForm fadd32)))
def execFsub16 (f : H16) (s : State) : Res := .next (s.issue (hdShort 0x41 (h16Wide f)) (bin32 fsub32 (uForm fsub32)))
def execFmul16 (f : H16) (s : State) : Res := .next (s.issue (hdShort 0x42 (h16Wide f)) (bin32 fmul32 (uForm fmul32)))
def execFmax16 (f : H16) (s : State) : Res := .next (s.issue (hdShort 0x46 (h16Wide f)) (bin32 fmaxOp (uForm fmaxOp)))

/-- `fop.rm` (R143); d is a source of the fma form only. -/
def execFopRm (f : Rrr) (s : State) : Res :=
  let op (a b d : Word) : Word := w32 (fp32.arith (f.x.toNat % 4) (f.x.toNat / 4) a.toNat b.toNat d.toNat)
  .next (s.issue (hdOf 0x44 (rrrWord 0x44 f)) (fun s x =>
    if f.x.toNat % 4 = 3 then tri32 op s x else bin32 (fun a b => op a b 0) (uForm (fun a b => op a b 0)) s x))

def execFcmp (f : Rrr) (s : State) : Res :=
  .next (s.issue (hdOf 0x49 (rrrWord 0x49 f)) fun s x =>
    putPred s x (fun k => fpCond f.x.toNat (x.st.src k f.a) (x.st.src k f.b)))

/-- A word of two halves, each given by an operation on the halves of its sources. -/
def halves (op : Nat → Nat → Nat → Nat) (a b d : Word) : Word :=
  w32 (op (a.toNat % 65536) (b.toNat % 65536) (d.toNat % 65536) +
    65536 * op (a.toNat / 65536) (b.toNat / 65536) (d.toNat / 65536))

/-- `hop2` (R147). -/
def execHop2 (f : Rrr) (s : State) : Res :=
  let op := halves (fun a b d => (fmt16 (bit f.x.toNat 2)).arith (f.x.toNat % 4) 0 a b d)
  .next (s.issue (hdOf 0x51 (rrrWord 0x51 f)) (fun s x =>
    if f.x.toNat % 4 = 3 then tri32 op s x else bin32 (fun a b => op a b 0) (uForm (fun a b => op a b 0)) s x))

/-- `hdot2` (R148). -/
def hdot2Op (F : Fmt) (a b : Word) : Word :=
  w32 (fp32.round 0 (sumNum 0
    [(F.val (a.toNat % 65536)).mul (F.val (b.toNat % 65536)), (F.val (a.toNat / 65536)).mul (F.val (b.toNat / 65536))]))

def execHdot2 (f : Rrr) (s : State) : Res :=
  .next (s.issue (hdOf 0x52 (rrrWord 0x52 f))
    (bin32 (hdot2Op (fmt16 (bit f.x.toNat 2))) (uForm (hdot2Op (fmt16 (bit f.x.toNat 2))))))

def execCvtFI (f : Rrr) (s : State) : Res :=
  .next (s.issue (hdOf 0x53 (rrrWord 0x53 f))
    (un32 (fun a => w32 (fp32.round (f.x.toNat / 4) (intNum (bit f.x.toNat 0) a.toNat)))))

def execCvtIF (f : Rrr) (s : State) : Res :=
  .next (s.issue (hdOf 0x54 (rrrWord 0x54 f))
    (un32 (fun a => w32 (satInt (bit f.x.toNat 0) (f.x.toNat / 4) (fp32.val a.toNat)))))

/-- d with `w` bits from position `p` replaced. -/
def insertBits (d : Word) (p w v : Nat) : Word :=
  w32 (d.toNat - (d.toNat / 2 ^ p % 2 ^ w) * 2 ^ p + (v % 2 ^ w) * 2 ^ p)

/-- d ← op(a, d) with d a source (R150). -/
def into32 (op : Word → Word → Word) (s : State) (x : Iss) : Act :=
  put32 s x (fun k => op (x.st.src k x.h.f.a) (x.st.reg32 k x.h.f.d.toNat))
    (match x.st.srcShape x.h.f.a, x.st.vreg x.h.f.d.toNat with
     | .u a, .u d => some (.u (op a d))
     | _, _ => none)

def execCvtHF (f : Rrr) (s : State) : Res :=
  .next (s.issue (hdOf 0x55 (rrrWord 0x55 f)) (into32 (fun a d =>
    insertBits d (16 * (f.x.toNat / 2 % 2)) 16 ((fmt16 (bit f.x.toNat 0)).sat (f.x.toNat / 4) (fp32.val a.toNat)))))

def execCvtFH (f : Rrr) (s : State) : Res :=
  .next (s.issue (hdOf 0x56 (rrrWord 0x56 f))
    (un32 (fun a => w32 (widen (fmt16 (bit f.x.toNat 0)) (a.toNat / 2 ^ (16 * (f.x.toNat / 2 % 2)) % 65536)))))

def execCvtQF (f : Rrr) (s : State) : Res :=
  .next (s.issue (hdOf 0x57 (rrrWord 0x57 f)) (into32 (fun a d =>
    insertBits d (8 * (f.x.toNat / 2 % 4)) 8 ((fmt8 (bit f.x.toNat 0)).sat 0 (fp32.val a.toNat)))))

def execCvtFQ (f : Rrr) (s : State) : Res :=
  .next (s.issue (hdOf 0x58 (rrrWord 0x58 f))
    (un32 (fun a => w32 (widen (fmt8 (bit f.x.toNat 0)) (a.toNat / 2 ^ (8 * (f.x.toNat / 2 % 4)) % 256)))))

def packH2 (F : Fmt) (rm : Nat) (a b : Word) : Word :=
  w32 (F.sat rm (fp32.val a.toNat) + 65536 * F.sat rm (fp32.val b.toNat))

def execPackH2 (f : Rrr) (s : State) : Res :=
  let op := packH2 (fmt16 (bit f.x.toNat 0)) (f.x.toNat / 4)
  .next (s.issue (hdOf 0x59 (rrrWord 0x59 f)) (bin32 op (uForm op)))

/-- `pack.q4` (R151): a and b are pairs. -/
def packQ4 (F : Fmt) (rm : Nat) (a b : W64) : Word :=
  let q (v : Nat) := F.sat rm (fp32.val v)
  w32 (q (bits64 a 31 0) + 2 ^ 8 * q (bits64 a 63 32) + 2 ^ 16 * q (bits64 b 31 0) + 2 ^ 24 * q (bits64 b 63 32))

def execPackQ4 (f : Rrr) (s : State) : Res :=
  .next (s.issue (hdOf 0x5A (rrrWord 0x5A f)) fun s x =>
    let op (k : Nat) := packQ4 (fmt8 (bit f.x.toNat 0)) (f.x.toNat / 4) (x.st.pair k f.a.toNat) (x.st.pair k f.b.toNat)
    put32 s x op (if x.st.pairU f.a.toNat && x.st.pairU f.b.toNat then some (.u (op (lowest x.g))) else none))

/-- `zbenc` (R152): one block over the lanes of the group. -/
def execZbenc (f : Rrr) (s : State) : Res :=
  .next (s.issue (hdOf 0x5B (rrrWord 0x5B f)) fun s x =>
    let zb4 := bit f.x.toNat 0
    let b := (x.st.src (lowest x.m) f.b).toNat
    let k := if bit b 4 then (if zb4 then 3 else 4) else b % 16
    let ls := lanesOf x.m
    let (codes, xa, xb) := zbEncode zb4 k (ls.map (fun j => fp32.val (x.st.src j f.a).toNat))
    let scales := w32 (xa + 256 * xb)
    let st := x.st.write32 x.m f.d.toNat (fun j => w32 (codes.getD (ls.idxOf j) 0)) none
    let st := st.write32 x.m (f.d.toNat + 1) (fun _ => scales) (some (.u scales))
    .done { s := s.putStrand x.i st, dst := .reg f.d.toNat })

def zbdecOp (zb4 : Bool) (a b : Word) : Word :=
  w32 (zbDecode zb4 (a.toNat % (if zb4 then 16 else 256)) (b.toNat % 256) (b.toNat / 256 % 256))

def execZbdec (f : Rrr) (s : State) : Res :=
  let op := zbdecOp (bit f.x.toNat 0)
  .next (s.issue (hdOf 0x5C (rrrWord 0x5C f)) (bin32 op (uForm op)))

/-! ## Issue of class-L instructions -/

/-- Records a class-L instruction of the guard-true lanes (R65): what it captured and what it will write. -/
def pendAct (s : State) (x : Iss) (caps : List Cap) (cnt : Nat) (tagU : Bool) (ends : Bool := false) (ords : List PendOrd := []) : Act :=
  let d := x.h.f.d.toNat
  if caps.isEmpty then .done { s := s, dst := if cnt = 0 then .nothing else .reg d, ends := ends }
  else
    let m := maskOf (fun k => caps.any (·.lane = k))
    let p : Pend := {
      id := s.nextId, op := x.h.row.op, f := x.h.f, pc := x.pc, caps := caps, mask := m, dst := d, cnt := cnt
      whole := m = x.st.wholeMask, tagU := tagU, seq := s.nextId, ords := ords }
    let s := { s with nextId := s.nextId + 1 + 2 * ords.length }
    .done { s := s.updStrand x.i (fun st => { st with pends := st.pends ++ [p] })
            dst := if cnt = 0 then .nothing else .pend d p.id, ends := ends }

/-- The SFU queue entries in use on a core (R138). -/
def State.sfuUse (s : State) (core : Nat) : Nat :=
  s.strands.foldl (fun n p =>
    if s.homeUnit p.2 = core then n + (p.2.pends.filter (fun q => 0x4A ≤ q.op && q.op ≤ 0x50)).length else n) 0

/-- An SFU function (R138, R139, R145). -/
def sfuIssue (s : State) (x : Iss) : Act :=
  if x.g = 0 then .done { s := s, dst := .reg x.h.f.d.toNat }
  else if 16 ≤ s.sfuUse (s.homeUnit x.st) || s.queuesBehind x.i .sfu (fun t => s.homeUnit t == s.homeUnit x.st) then .stall .sfu
  else pendAct s x ((lanesOf x.g).map (fun k => ⟨k, 0, (x.st.src k x.h.f.a).setWidth 128⟩)) 1
    ((x.st.srcShape x.h.f.a).tag = 0)

def execFrcp (f : Rrr) (s : State) : Res := .next (s.issue (hdOf 0x4A (rrrWord 0x4A f)) sfuIssue)
def execFrsq (f : Rrr) (s : State) : Res := .next (s.issue (hdOf 0x4B (rrrWord 0x4B f)) sfuIssue)
def execFsqrt (f : Rrr) (s : State) : Res := .next (s.issue (hdOf 0x4C (rrrWord 0x4C f)) sfuIssue)
def execFex2 (f : Rrr) (s : State) : Res := .next (s.issue (hdOf 0x4D (rrrWord 0x4D f)) sfuIssue)
def execFlg2 (f : Rrr) (s : State) : Res := .next (s.issue (hdOf 0x4E (rrrWord 0x4E f)) sfuIssue)
def execFsin (f : Rrr) (s : State) : Res := .next (s.issue (hdOf 0x4F (rrrWord 0x4F f)) sfuIssue)
def execFcos (f : Rrr) (s : State) : Res := .next (s.issue (hdOf 0x50 (rrrWord 0x50 f)) sfuIssue)

end Sys2Proof.Machine
end

