-- ==== Sys2Proof/Machine/Land.lean ====
section
/-! DEFINITION. Performing class-L accesses and landing their results (R65, R67, R70, R170, R171, R201 to
R207, R210 to R216), and what R214 waits for. -/
namespace Sys2Proof.Machine

/-! ## Where a pending access lies -/

/-- The place of an access, for the order of one thread's accesses to one location (R201). -/
def State.placeOf (s : State) (st : Strand) (op : Nat) (f : Rrr) (k : Nat) (p : W64) (extra : Int) : Option (Nat × Path) :=
  match s.resolve st k p (accOff op f + extra) (accSize op f) { quiet := true } (isAtom op || isRed op) (op != 0x9C) with
  | (_, _, .place loc path _) => some (loc, path)
  | (_, _, .peer d o) => some (peerLoc d o, .peer)
  | _ => none

/-- Whether a pending access is held: its place is not known yet (R190, R394). -/
def State.placeHeld (s : State) (st : Strand) (op : Nat) (f : Rrr) (k : Nat) (p : W64) (extra : Int) : Bool :=
  match s.resolve st k p (accOff op f + extra) (accSize op f) { quiet := true } (isAtom op || isRed op) (op != 0x9C) with
  | (_, _, .wait) => true
  | _ => false

/-- The place of lane c of a pending access. -/
def State.capPlace (s : State) (st : Strand) (p : Pend) (c : Cap) : Option (Nat × Path) :=
  s.placeOf st p.op p.f (p.addrLane c.lane) c.ptr (p.limbOff c.lane)

/-- Whether lane c of a pending access is held. -/
def State.capHeld (s : State) (st : Strand) (p : Pend) (c : Cap) : Bool :=
  s.placeHeld st p.op p.f (p.addrLane c.lane) c.ptr (p.limbOff c.lane)

/-- The path of lane c of a pending access (R209): that of its place, and while the place is not known yet that of its
space, or of the host memory its leaf names. -/
def State.capPath (s : State) (st : Strand) (p : Pend) (c : Cap) : Path :=
  match s.capPlace st p c with
  | some (_, q) => q
  | none =>
    let unit := s.unitOf st
    if (s.capVa st p c).any (s.hostLeaf (some unit) (dieOfUnit unit) (s.fnOf st)) then .host
    else if st.ctx == .S then .comb else if bits c.ptr.toNat 63 60 == 4 then .peer else .core

/-- Whether an opcode makes a write of memory. -/
def makesWrite (op : Nat) : Bool := isStore op || isRel op || isRed op || isAtom op

/-- The order an instruction's lane captured. -/
def Pend.ord (p : Pend) (k : Nat) : PendOrd := (p.ords.find? (·.lane == k)).getD { lane := k, wid := 0, must := [], carry := [], rel := 0 }

/-! ## The earlier work of R214 -/

/-- Whether one of the writes named is not applied at its home yet. -/
def State.unapplied (s : State) (named : Nat → Bool) : Bool :=
  s.inflight.any (fun w => named w.id) || s.strands.any (fun e => e.2.unleft.any named)

/-- Whether the earlier work of the thread of lane k of strand i that a mask names is done; `before` is the place
in program order of the instruction that waits. -/
def State.workDone (s : State) (i k : Nat) (m : BitVec 6) (before : Nat) : Bool :=
  let sees (p : Path) : Bool := m.getLsbD (pathIdx p) && (p != .copy) && (p != .matrix)
  let t := match s.strand i with | some st => st.thread i k | none => (i, k)
  (match s.strand i with
   | some st =>
     st.pends.all (fun p => !(decide (p.seq < before) && isMem p.op) || p.caps.all (fun c => c.lane != k || !sees (s.capPath st p c))) &&
     (!m.getLsbD 3 || st.ctx != .S || s.insts.all (fun e => e.2.strand != i || e.2.outCmds.isEmpty))
   | none => true) &&
  s.inflight.all (fun w => !(w.strand == t.1 && w.lane == t.2 && decide (w.cmd.getD 0 < before) && sees w.path)) &&
  (!m.getLsbD 1 || s.dies.all (fun d => d.2.queue.all (fun c => !(c.strand == t.1 && c.lane == t.2 && decide (c.id < before))))) &&
  (!m.getLsbD 2 || s.cores.all (fun d => d.2.mqueue.all (fun c => !(c.strand == t.1 && decide (c.id < before)))))

/-! ## One lane's access -/

/-- Whether lane c of a pending access waits for the walk of its page (R185). -/
def State.awaitsWalk (s : State) (st : Strand) (p : Pend) (c : Cap) : Bool :=
  (s.capVa st p c).any (s.awaits (s.unitOf st) (s.fnOf st))

/-- What performing one access gives. -/
inductive LaneOut where
  | val (v : Nat)
  | fault (x : Stop) (addr : W64)
  | wait

/-- What a lane learns from an access at place `seq` of its program: the writes entering its history (R213), those
its later reads must see (R216), and those its read has returned (R210). Its pending accesses after `seq` are
later accesses; a pending `st.rel` releases what its thread's earlier loads return (R215). -/
def State.learn (s : State) (i k seq : Nat) (hist must seen : List (Nat × Path)) : State :=
  if hist.isEmpty && must.isEmpty && seen.isEmpty then s else
  s.updStrand i (fun st =>
    let later (p : Pend) (o : PendOrd) : PendOrd :=
      if o.lane == k && decide (seq < p.seq) then { o with must := addWrites o.must must, carry := addWrites o.carry (onPaths hist o.rel) } else o
    { st.setLane k (fun l => { l with ord := { l.ord with
        hist := addWrites l.ord.hist hist, must := addWrites l.ord.must must, seen := addWrites l.ord.seen seen } }) with
      pends := st.pends.map (fun p => { p with ords := p.ords.map (later p) }) })

/-- A history that lane k of strand i has acquired orders what comes at place `from_` of its program and later: its
accesses, and the commands it has issued since (R214, R216). -/
def State.learnAcq (s : State) (i k from_ : Nat) (h : List (Nat × Path)) : State :=
  if h.isEmpty then s else
  let add (o : Ord) : Ord := { o with must := addWrites o.must h }
  let s := s.updStrand i (fun st =>
    { st.setLane k (fun l => { l with ord := add l.ord }) with
      pends := st.pends.map (fun p => { p with ords := p.ords.map (fun o =>
        if o.lane == k && decide (from_ ≤ p.seq) then { o with must := addWrites o.must h } else o) }) })
  let instOf (c : CCmd) : Bool := (tget s.insts c.inst).any (·.strand == i)
  { s with
    dies := tmap s.dies (fun (d : Die) => { d with queue := d.queue.map (fun (c : Cmd) =>
      if c.strand == i && c.lane == k && decide (from_ ≤ c.id) then { c with ord := add c.ord } else c) })
    cores := tmap s.cores (fun (d : Core) => { d with mqueue := d.mqueue.map (fun (c : MCmd) =>
      if c.strand == i && c.lane == k && decide (from_ ≤ c.id) then { c with ord := add c.ord } else c) })
    banks := tmap s.banks (fun (b : Bank) => { b with buf := b.buf.map (fun (c : CCmd) =>
      if instOf c && decide (from_ ≤ c.id) then { c with ord := add c.ord } else c) }) }

/-- What an access of lane k that returned what a release released acquires: the paths of each mask, from the place at
which that mask orders (R216). -/
def State.acquired (s : State) (i k : Nat) (p : Pend) (rel : List (Nat × Path)) : State :=
  (p.ord k).acqs.foldl (fun s a => s.learnAcq i k a.1 (onPaths rel a.2)) s

/-- Whether a pending access of lane k of strand i still has to return what orders accesses on a path from a place of
its program on (R216). -/
def State.acqPending (s : State) (i k : Nat) (p : Path) (place : Nat) : Bool :=
  (s.strand i).any (fun st => st.pends.any (fun q => q.caps.any (·.lane == k) &&
    (q.ord k).acqs.any (fun a => decide (a.1 ≤ place) && a.2.getLsbD (pathIdx p))))

/-- The strand and lane that run a thread now: its forager's, or its home's (R224). -/
def State.threadAt (s : State) (strand lane : Nat) : Nat × Nat :=
  if (s.strand strand).any (fun st => (st.lane lane).st == .away) then
    match s.foragerOf strand lane with | some (j, _) => (j, 0) | none => (strand, lane)
  else (strand, lane)

/-- A new write of lane k of strand i, with the id and the history it captured at issue (R213, R215); `n` counts
the parts of an access that is two writes (R203), and `cap` is all the data captured (R200). -/
def State.newWrite (s : State) (i : Nat) (st : Strand) (p : Pend) (k n : Nat) (path : Path) (fn loc : Nat) (op : WrOp) (data : List Byte)
    (cap : W128) (ptr : W64) (detail : Nat) : State :=
  let o := p.ord k
  let t := st.thread i k
  let w : Wr := {
    id := o.wid + n, strand := t.1, lane := t.2, cx := st.cx, fn := s.fnOf st, path := path, die := dieOfUnit (s.unitOf st)
    loc := loc, op := op, data := data, strong := isAtom p.op || isRel p.op, carry := o.carry, vis := [], all := false
    cmd := some p.seq, wait := if isRel p.op then p.f.b else 0, pc := p.pc, ptr := ptr, detail := detail, src := i
    owner := if fn == s.fnOf st then none else some fn
    frec := some (s.mkFault st k 0 p.pc ptr cap detail false) }
  { s with inflight := s.inflight ++ [w] }.learn i k p.seq [(w.id, path)] [] []

/-- Whether an access is two of 8 bytes, the lower first: 16 bytes of host memory or of space 0x4 (R203). -/
def halved (path : Path) (loc size : Nat) : Bool := (isHost loc || path == .peer) && size == 16

/-- The writes of a store or reduction: one, or two halves, the upper with its own location (R200, R203). -/
def State.newWrites (s : State) (i : Nat) (st : Strand) (p : Pend) (c : Cap) (path : Path) (fn loc : Nat) (ptr : W64) (detail : Nat) : State :=
  let size := accSize p.op p.f
  let op : WrOp := if p.op == 0x9A then .add size else if p.op == 0x9B then .fadd else .store
  let data := toLE size c.data.toNat
  let cap := BitVec.ofNat 128 (leNat data)
  if halved path loc size then
    (s.newWrite i st p c.lane 0 path fn loc op (data.take 8) cap ptr detail).newWrite i st p c.lane 1 path fn (loc + 8) op (data.drop 8) cap (ptr + 8) detail
  else s.newWrite i st p c.lane 0 path fn loc op data cap ptr detail

/-- A store or reduction that this device refuses as its own peer: it has returned, so each of its writes is discarded
with a record of the accessing function (R193, R200). -/
def State.refusedWrite (s : State) (i : Nat) (st : Strand) (p : Pend) (c : Cap) (ptr : W64) (detail : Nat) (x : Stop) : State :=
  let t := s.newWrites i st p c .peer (s.fnOf st) 0 ptr detail
  let s := { t with inflight := s.inflight }
  (t.inflight.drop s.inflight.length).foldl (fun s w => s.queueRecord w.fn (s.asyncRecord w x) none) s

/-- Whether a read of n bytes on a path must wait: a write it must see has not been applied there yet (R216). `own`
are writes its thread's own order gives it. -/
def State.mustWait (s : State) (must : List (Nat × Path)) (path : Path) (loc n : Nat) (own : Wr → Bool) : Bool :=
  s.inflight.any (fun w => w.overlaps loc n && must.contains (w.id, path) && !own w) ||
  s.strands.any (fun e => e.2.pends.any (fun p => p.caps.any (fun c =>
    let o := p.ord c.lane
    o.wid != 0 && (must.contains (o.wid, path) || must.contains (o.wid + 1, path)) &&
    (match s.capPlace e.2 p c with | some (l, _) => decide (l < loc + n) && decide (loc < l + accSize p.op p.f) | none => false))))

/-- What a read of n bytes at a home's latest value returns to a thread, and what it learns (R212). -/
def State.latest (s : State) (loc n : Nat) (path : Path) : Nat × List (Nat × Path) × List (Nat × Path) :=
  (leNat (s.homeRead loc n), s.readFrom (fun _ => true) loc n, (s.sources (fun _ => true) loc n).map (fun w => (w.id, path)))

/-- Keeps what an access of a pending instruction has read so far. -/
def State.keepHalf (s : State) (i id k v : Nat) : State :=
  s.updStrand i (fun st => { st with pends := st.pends.map (fun p =>
    if p.id == id then { p with ords := p.ords.map (fun o => if o.lane == k then { o with half := some v } else o) } else p) })

/-- The read of a load, on its path's view (R210): its value, what its thread learns, and the history released with it;
none while it waits. -/
def State.loadView (s : State) (i : Nat) (st : Strand) (p : Pend) (c : Cap) (path : Path) (loc n : Nat) (shared : Bool) :
    Option (State × Nat × List (Nat × Path) × List (Nat × Path) × List (Nat × Path)) :=
  let t := st.thread i c.lane
  let die := dieOfUnit (s.unitOf st)
  let o : Ord := { (st.lane c.lane).ord with must := (p.ord c.lane).must }
  let mine (w : Wr) : Bool := w.strand == t.1 && w.lane == t.2 && w.path == path
  if s.inflight.any (fun w => w.overlaps loc n && mine w && (w.op != .store || shared)) || s.mustWait o.must path loc n mine then none
  else
    let f (w : Wr) : Bool := w.seenBy o t.1 t.2 path die
    (s.look o t.1 t.2 path die loc n).map (fun u =>
      (u, leNat (s.viewRead o t.1 t.2 path die loc n), s.readFrom f loc n, (s.sources f loc n).map (fun w => (w.id, path)),
        (s.sources f loc n).flatMap Wr.carry))

/-- An atomic takes its location's line from the issuing core too (R197, notes/assumptions/19.md). -/
def State.atomRefresh (s : State) (w : Wr) : State :=
  if w.path == .core && isDram w.loc then s.refresh .core w.die (w.loc / 64 * 64) 64 else s

/-- Performs the access of lane c of a pending instruction (R175, R201 to R206). `ext` and `err` are what a
peer answers: the bytes read, and its trap code with 256 times its DETAIL, or 0 (R403). `shared` are the higher lanes of the instruction that read the
same bytes: none of them reads an older value (R203). `served` are the other lanes that the one read serves (R202). -/
def State.performLane (s : State) (i : Nat) (st : Strand) (p : Pend) (c : Cap) (ext : W128) (err : Nat) (detail : Nat) (shared : List Nat)
    (served : List Nat := []) : State × LaneOut :=
  let op := p.op
  let size := accSize op p.f
  let k := c.lane
  let t := st.thread i k
  let o := p.ord k
  let strong := isAtom op || isAcq op || isRel op
  if s.awaitsWalk st p c then (s, .wait)
  else if (strong && s.inflight.any (fun w => w.strand == t.1 && w.lane == t.2 && w.strong)) || (isRel op && !s.workDone i k p.f.b p.seq) then (s, .wait)
  else
  match s.resolve st (p.addrLane k) c.ptr (accOff op p.f + p.limbOff k) size { accNeed op with who := some (2 * p.id) } (isAtom op || isRed op) with
  | (s, q, .stop x) => (s, .fault x q)
  | (s, _, .wait) => (s, .wait)
  | (s, q, .refused x) =>
    if isStore op || isRel op || isRed op then (s.refusedWrite i st p c q detail x, .val 0) else (s, .fault x q)
  | (s, q, .peer dev off) =>
    if s.inflight.any (fun w => w.strand == t.1 && w.lane == t.2 && w.overlaps (peerLoc dev off) size) then (s, .wait)
    else if isAtom op && !s.linkFree dev 16 then (s, .wait)
    else if isLoad op || isAcq op || isAtom op then
      let s := if isAtom op then s.peerSend 0 dev (toLE 16 c.data.toNat) else s
      if err != 0 then (s, .fault ⟨err % 256, err / 256, err % 256 == 0x0D⟩ q) else (s, .val (ext.toNat % 2 ^ (8 * size)))
    else (s.newWrites i st p c .peer (s.fnOf st) (peerLoc dev off) q detail, .val 0)
  | (s, q, .place loc path fn) =>
    if s.homeHeld loc then (s, .wait)
    else if isStore op || isRel op || isRed op then (s.newWrites i st p c path fn loc q detail, .val 0)
    else
      match s.homeRefuses fn loc size (isAtom op) with
      | some x => (s.afterRefusal fn loc size (isAtom op) x, .fault x q)
      | none =>
        let learnAll (s : State) (hist seen rel : List (Nat × Path)) : State :=
          (k :: served).foldl (fun s j => (s.learn i j p.seq hist [] seen).acquired i j p rel) (shared.foldl (fun s j => s.learn i j p.seq [] [] seen) s)
        if isLoad op then
          let half := halved path loc size
          let at_ := if half && o.half.isSome then loc + 8 else loc
          match s.loadView i st p c path at_ (if half then 8 else size) !shared.isEmpty with
          | none => (s, .wait)
          | some (s, v, hist, seen, rel) =>
            let s := learnAll s hist seen rel
            match half, o.half with
            | true, none => (s.keepHalf i p.id k v, .wait)
            | true, some lo => (s, .val (lo + 2 ^ 64 * v))
            | false, _ => (s, .val v)
        else if s.inflight.any (fun w => w.strand == t.1 && w.lane == t.2 && w.overlaps loc size) || s.mustWait o.must path loc size (fun _ => false) then (s, .wait)
        else
          let (v, hist, seen) := s.latest loc size path
          let s := learnAll s hist seen ((s.sources (fun _ => true) loc size).flatMap Wr.carry)
          if isAcq op then (s, .val v)
          else
            let w := 8 * size
            let d := c.data.toNat
            let new := atomOp op w v (d % 2 ^ w) (d / 2 ^ w % 2 ^ w)
            let s := s.newWrite i st p k 0 path fn loc .store (toLE size new) c.data q 0
            match s.inflight.getLast? with
            | some w => ((s.applyWrite w).atomRefresh w, .val v)
            | none => (s, .val v)

/-! ## Which lanes may perform now -/

/-- The bytes an access at a place concerns: a line operation its whole line (R207). -/
def accRange (op : Nat) (f : Rrr) (loc : Nat) : Nat × Nat := if op == 0x9C then (loc / 64 * 64, 64) else (loc, accSize op f)

/-- Whether two accesses touch a common byte; one whose place is held may touch any (R190, R381). -/
def State.hits (s : State) (st : Strand) (p : Pend) (c : Cap) (q : Pend) (d : Cap) : Bool :=
  match s.capPlace st p c, s.capPlace st q d with
  | some (a, _), some (b, _) =>
    let x := accRange p.op p.f a
    let y := accRange q.op q.f b
    decide (x.1 < y.1 + y.2) && decide (y.1 < x.1 + x.2)
  | _, none => s.capHeld st q d
  | none, _ => false

/-- Whether the order of one lane's accesses lets this one perform now: earlier accesses of the lane to the
same bytes, earlier strong accesses, what acquires its path before it, and lower lanes of the same instruction to the
same bytes come first (R201, R203, R210, R211, R216). -/
def State.orderOk (s : State) (st : Strand) (p : Pend) (c : Cap) : Bool :=
  let strong (op : Nat) : Bool := isAtom op || isAcq op || isRel op
  st.pends.all (fun q => !decide (q.seq < p.seq) || !isMem q.op || q.caps.all (fun d =>
    d.lane != c.lane || !((q.ord d.lane).acqs.any (fun a => decide (a.1 ≤ p.seq) && a.2.getLsbD (pathIdx (s.capPath st p c))) ||
      (strong q.op && strong p.op) || s.hits st p c q d))) &&
  p.caps.all (fun d => !decide (d.lane < c.lane) || !s.hits st p c p d)

/-- The higher lanes of an instruction that touch the bytes lane c touches. -/
def State.sharers (s : State) (st : Strand) (p : Pend) (c : Cap) : List Nat :=
  (p.caps.filter (fun d => decide (c.lane < d.lane) && s.hits st p c p d)).map (·.lane)

/-! ## Writing a landed result -/

/-- The value a load leaves in a register (R201, R202). -/
def loadValue (op : Nat) (wide : Bool) (v : Nat) : Nat :=
  match op with
  | 0x81 => if wide then wrapTo 64 (toSigned 8 v) else wrapTo 32 (toSigned 8 v)
  | 0x83 => if wide then wrapTo 64 (toSigned 16 v) else wrapTo 32 (toSigned 16 v)
  | _ => v

/-- The bits of a landed result. -/
def resultBits (op : Nat) (f : Rrr) : Nat :=
  if op == 0xB7 then 64
  else if op == 0x86 then 128
  else if op == 0x85 || op == 0x8D then 64
  else if isAtom op && accSize op f == 8 then 64
  else 32

/-- Writes the landed results of the lanes `m` of a pending instruction, and its window entry, in the form its issue
settled (R101). -/
def Strand.landWrite (st : Strand) (p : Pend) (m : Word) (vals : Nat → Nat) : Strand :=
  if p.cnt = 0 || m = 0 then st else
  let u := p.whole && p.tagU
  let v0 := vals (lowest m)
  let st' :=
    match resultBits p.op p.f with
    | 128 => st.landed128 m p.dst (fun k => BitVec.ofNat 128 (vals k)) (if u then some (BitVec.ofNat 128 v0) else none)
    | 64 => st.landed64 m p.dst (fun k => BitVec.ofNat 64 (vals k)) (if u then some (BitVec.ofNat 64 v0) else none)
    | _ =>
      if st.ctx.wide then st.write64 m p.dst (fun k => BitVec.ofNat 64 (vals k)) none
      else st.landed32 m p.dst (fun k => BitVec.ofNat 32 (vals k)) (if u then some (BitVec.ofNat 32 v0) else none)
  let win (e : WinEnt) : WinEnt :=
    if e.pend == some p.id then
      { e with v := if u then .u (BitVec.ofNat 32 v0) else e.v.merge m (fun k => BitVec.ofNat 32 (vals k))
               s := st'.sreg p.dst }
    else e
  { st' with run := st'.run.map (fun r => { r with win := r.win.map win }) }

/-- Whether a fault's record carries the captured data: stores and atomics (R70). -/
def dataOf (op : Nat) (d : W128) : W128 := if isLoad op || isAcq op || op == 0x9C || op == 0xA0 || op == 0xA1 then 0 else d

/-- Puts a replay among those of its lane in program order (R211). -/
def insertReplay (rs : List Replay) (r : Replay) : List Replay :=
  let before (e : Replay) : Bool := decide (e.pend.seq ≤ r.pend.seq)
  rs.filter before ++ [r] ++ rs.filter (fun e => !before e)

/-- Records a run-precise fault of lane k of a pending instruction (R70, R71); a recoverable one keeps what
its replay needs: what `caps` captured. `chain` lanes park with it (R170). -/
def State.landFault (s : State) (i : Nat) (p : Pend) (caps : List Cap) (c : Cap) (x : Stop) (addr : W64) (detail : Nat) (chain : Nat := 0) : State :=
  match s.strand i with
  | none => s
  | some st =>
    let l := st.lane c.lane
    let resume := if l.st == .fault then (l.flts.getLast?.map FaultRec.resume).getD l.pc else l.pc
    let r := { s.mkFault st c.lane x.code p.pc addr (dataOf p.op c.data) (x.detail + detail) x.recov with
      resume := resume, replay := if x.recov then p.id else 0, chain := chain }
    let again : Replay := ⟨i, c.lane, { p with
      caps := caps, trailed := false, flts := [], whole := false
      ords := (p.ords.filter (fun o => caps.any (·.lane == o.lane))).map (fun o => { o with half := none }) }, false⟩
    let s := if x.recov then s.setFunc (s.fnOf st) (fun f => { f with replays := insertReplay f.replays again }) else s
    if p.trailed then
      s.putStrand i { st with pends := st.pends.map (fun q => if q.id == p.id then { q with flts := q.flts ++ [r] } else q) }
    else s.addFault i c.lane r

/-- Drops lanes of a pending instruction that have returned, and the instruction when none is left. -/
def State.dropCaps (s : State) (i id : Nat) (gone : Word) : State :=
  s.updStrand i fun st =>
    let ps := st.pends.map (fun q => if q.id == id then { q with caps := q.caps.filter (fun c => !inMask gone c.lane) } else q)
    { st with pends := ps.filter (fun q => !(q.caps.isEmpty && q.flts.isEmpty)) }

/-- Whether a write is one of a thread's own accesses, and not an engine's. -/
def Wr.threads (w : Wr) : Bool := w.path != .copy && w.path != .matrix

/-- Whether a write may be applied at its home now: the lane's earlier writes to its bytes, lower lanes' writes of
the same instruction to its bytes, the lower half of a split access (R203) and the lane's earlier strong writes are
applied, what a `st.rel` waits for is done, and its home takes accesses (R201, R211, R214, R381). -/
def State.mayApply (s : State) (w : Wr) : Bool :=
  !s.homeHeld w.loc && (!isPeer w.loc || s.linkFree (peerDev w.loc) w.data.length) &&
  (s.inflight.takeWhile (fun v => v.id != w.id)).all (fun v =>
    let meets := v.overlaps w.loc w.data.length
    !(v.strand == w.strand &&
      ((v.lane == w.lane && ((meets && (v.path == w.path || (v.threads && w.threads))) || (v.strong && w.strong) ||
          (v.cmd == w.cmd && v.threads && (isHost w.loc || w.path == .peer)))) ||
       (v.cmd == w.cmd && meets)))) &&
  (w.wait == 0 || s.workDone w.src (if (s.strand w.src).any (fun st => st.fg.isSome) then 0 else w.lane) w.wait (w.cmd.getD 0))

/-- Writes a line's dirty bytes back to their homes, each as soon as the order of its thread lets it (R211), and
whether all are there. -/
def State.writeBack (s : State) (ws : List Wr) : State × Bool :=
  ws.foldl (fun a w => if a.1.mayApply w then (a.1.applyWrite w, a.2) else (a.1, false)) (s, true)

/-- The line operations of `cache` (R207). A line holds the ordinary stores of its die that have not reached their
homes; reductions are performed at the home (R197). Once its line is discarded, the die reads it again from the home.
A prefetch that fails a step does nothing. -/
def State.cacheOp (s : State) (st : Strand) (p : Pend) (c : Cap) : State × LaneOut :=
  let o := p.f.d.toNat
  let sp := bits c.ptr.toNat 63 60
  if s.awaitsWalk st p c then (s, .wait)
  else if o ≤ 1 then
    match s.resolve st c.lane c.ptr (accOff 0x9C p.f) 1 { r := true, quiet := true } false with
    | (_, _, .place loc _ fn) =>
      if (s.homeRefuses fn (loc / 64 * 64) 64 false).isSome || (sp != 0 && sp != 3) then (s, .val 0)
      else ((s.resolve st c.lane c.ptr (accOff 0x9C p.f) 1 { r := true } false).1, .val 0)
    | _ => (s, .val 0)
  else if sp != 0 && sp != 3 then (s, .val 0)
  else
    match s.resolve st c.lane c.ptr (accOff 0x9C p.f) 1 { w := true, quiet := true, line := true } false (align := false) with
    | (s, q, .stop x) => (s, .fault x q)
    | (s, _, .place loc _ fn) =>
      let line := loc / 64 * 64
      let die := dieOfUnit (s.unitOf st)
      let dirty := s.inflight.filter (fun w =>
        w.overlaps line 64 && w.die == die && w.fn == fn && w.op == .store && !w.strong && w.threads)
      let (s, clean) := if o == 3 then (s, true) else s.writeBack dirty
      if !clean then (s, .wait)
      else if o == 2 then (s, .val 0)
      else
        let s := { s with inflight := s.inflight.filter (fun w => !(dirty.any (fun d => d.id == w.id)))
                          l2bad := if o == 3 then s.l2bad.filter (fun l => !badLine fn line 64 l) else s.l2bad }
        (s.refresh (if st.ctx == .S then .comb else .core) die line 64, .val 0)
    | (s, _, _) => (s, .wait)

/-- Lands one lane of a pending class-L instruction. -/
def State.landLane (s : State) (i : Nat) (p : Pend) (c : Cap) (ext : W128) (err : Nat) : State :=
  match s.strand i with
  | none => s
  | some st =>
    let one := maskOf (· == c.lane)
    let done (s : State) (v : Nat) : State :=
      (s.updStrand i (fun st => st.landWrite p one (fun _ => v))).dropCaps i p.id one
    if 0x4A ≤ p.op && p.op ≤ 0x50 then done s (sfuOp p.op (c.data.setWidth 32)).toNat
    else if p.op == 0xB7 then done s c.data.toNat
    else if p.op == 0x9C then
      if !s.orderOk st p c then s else
      match s.cacheOp st p c with
      | (s, .val _) => s.dropCaps i p.id one
      | (s, .fault x a) => (s.landFault i p [c] c x a 0).dropCaps i p.id one
      | (s, .wait) => s
    else if !s.orderOk st p c then s
    else
      match s.performLane i st p c ext err 0 (s.sharers st p c) with
      | (s, .val v) => done s (loadValue p.op st.ctx.wide v)
      | (s, .fault x a) => (s.landFault i p [c] c x a 0).dropCaps i p.id one
      | (s, .wait) => s

/-- DETAIL of the limb that a lane of a chain is (R320). -/
def Pend.limbDetail (p : Pend) (k : Nat) : Nat := (k % 2 ^ p.f.x.toNat) * 65536 + (k / 2 ^ p.f.x.toNat) * 2 ^ 24

/-- The checks that the stores of one chain make before they return, in ascending order; the first fault stops them
(R170). -/
def State.limbs (s : State) (st : Strand) (p : Pend) : List Cap → State × (Unit ⊕ Option (Cap × Stop × W64))
  | [] => (s, .inl ())
  | c :: cs =>
    if s.awaitsWalk st p c then (s, .inr none)
    else
      match s.resolve st (p.addrLane c.lane) c.ptr (accOff p.op p.f + p.limbOff c.lane) (accSize p.op p.f) { accNeed p.op with who := some (2 * p.id) } false with
      | (s, q, .stop x) => (s, .inr (some (c, x, q)))
      | (s, _, .wait) => (s, .inr none)
      | (s, _, .place loc _ _) => if s.homeHeld loc then (s, .inr none) else s.limbs st p cs
      | (s, _, _) => s.limbs st p cs

/-- Ends the access of a chain with a fault of one of its limbs: one record, and nothing of the chain performed. -/
def State.chainFault (s : State) (i : Nat) (p : Pend) (cs : List Cap) (c : Cap) (x : Stop) (a : W64) : State :=
  (s.landFault i p cs c x a (p.limbDetail c.lane) (2 ^ p.f.x.toNat)).dropCaps i p.id (maskOf (fun k => cs.any (·.lane == k)))

/-- Lands the next limb of a chain of an `lld`; the chain's registers are written once all its limbs are there (R170,
R171, notes/assumptions/58.md). -/
def State.landLld (s : State) (i : Nat) (st : Strand) (p : Pend) (cs : List Cap) (ext : W128) (err : Nat) : State :=
  match cs.find? (fun c => (p.ord c.lane).half.isNone) with
  | none => s
  | some c =>
    match s.performLane i st p c ext err 0 [] with
    | (s, .val v) =>
      let s := s.keepHalf i p.id c.lane v
      let val (k : Nat) : Nat := if k == c.lane then v else (p.ord k).half.getD 0
      if cs.all (fun d => d.lane == c.lane || (p.ord d.lane).half.isSome) then
        let m := maskOf (fun k => cs.any (·.lane == k))
        (s.updStrand i (fun st => st.landWrite p m val)).dropCaps i p.id m
      else s
    | (s, .fault x a) => s.chainFault i p cs c x a
    | (s, .wait) => s

/-- Lands one chain of an `lld` or `lst` (R170). An `lst` hands over the writes of all its limbs or none. Lower lanes of
the instruction come first on the same bytes, as in any access (R171, R203). -/
def State.landChain (s : State) (i : Nat) (p : Pend) (chain : Nat) (ext : W128) (err : Nat) : State :=
  match s.strand i with
  | none => s
  | some st =>
    let cs := p.caps.filter (fun c => c.lane / 2 ^ p.f.x.toNat == chain)
    if cs.isEmpty || !cs.all (s.orderOk st { p with caps := p.caps.filter (fun c => c.lane / 2 ^ p.f.x.toNat != chain) }) then s
    else if p.op == 0x7C then s.landLld i st p cs ext err
    else
      match s.limbs st p cs with
      | (s, .inl _) => (cs.foldl (fun s c => (s.performLane i st p c 0 0 (p.limbDetail c.lane) []).1) s).dropCaps i p.id (maskOf (fun k => cs.any (·.lane == k)))
      | (s, .inr (some (c, x, a))) => s.chainFault i p cs c x a
      | (s, .inr none) => s

/-- Lands a whole write that reads its location once: one access serves every lane (R202). -/
def State.landOnce (s : State) (i : Nat) (p : Pend) (ext : W128) (err : Nat) : State :=
  match s.strand i, p.caps with
  | some st, c :: _ =>
    let m := maskOf (fun k => p.caps.any (·.lane == k))
    if !(p.caps.all (fun d => s.orderOk st { p with caps := [] } d)) then s
    else
      match s.performLane i st p c ext err 0 [] ((p.caps.map Cap.lane).filter (· != c.lane)) with
      | (s', .val v) =>
        (s'.updStrand i (fun st => st.landWrite p m (fun _ => loadValue p.op st.ctx.wide v))).dropCaps i p.id m
      | (s', .fault x a) => (p.caps.foldl (fun s d => s.landFault i p [d] d x a 0) s').dropCaps i p.id m
      | (s', .wait) => s'
  | _, _ => s

end Sys2Proof.Machine
end

