-- ==== Sys2Proof/Machine/Forage.lean ====
section
/-! DEFINITION. Foragers (R259 to R278): departure, refusal, slots and arrival queues, the return home, and
`fstat`. A departing lane's continuation is a strand of context F made at issue; its hop count is one less
than that of the host it travels to until it is accepted. -/
namespace Sys2Proof.Machine

/-! ## Arrivals (R261) -/

/-- The freed slots of a unit go to the oldest of its queued continuations that may take one (R261). -/
def State.seatQueued (s : State) (u : Nat) : State :=
  match (s.arrivalsOf u).find? (fun j => match s.strand j with | some g => s.slotFree u (s.fnOf g) | none => false) with
  | some j => (s.setArrivals u (fun q => q.filter (· != j)) 0).seat j u
  | none => s

/-- Counts a forager statistic of a context (R273). -/
def State.countFg (s : State) (cx n : Nat) : State :=
  s.updCx cx (fun c => { c with fstat := c.fstat.modify n (· + 1) })

/-- Every queued continuation of a unit that may take a slot takes one, oldest first (R261). -/
def State.seatAll (s : State) (u : Nat) : State := (List.range 32).foldl (fun s _ => s.seatQueued u) s

/-! ## forage and forage.try (R264 to R267) -/

/-- What the checks of a departure find. -/
inductive FoOut where
  | trap (x : Stop) (addr : W64)
  | refuse (cause : Nat)
  | go (u : Nat)
  | held

/-- The unit that owns a place: a core for SRAM, a stack core for DRAM (R266). -/
def unitOfLoc (l : Nat) : Nat :=
  if isSram l then (l - 2 ^ 40) / 2 ^ 22 else 1024 + 16 * (chanOf l / 64) + chanOf l % 64 / 4

/-- The opcodes of the 16-bit forms by op4 (R33). -/
def shortOps : List Nat := [0x00, 0x01, 0x02, 0x03, 0x0A, 0x0B, 0x0C, 0x0D, 0x0E, 0x0F, 0x10, 0x11, 0x40, 0x41, 0x42, 0x46]

/-- Whether the opcode of fetched bytes may run in context F, or is no assigned opcode (R265). -/
def runsInF (bs : List Byte) : Bool :=
  let w := leNat bs
  match opRow (if bit w 0 then w / 4 % 256 else shortOps.getD (w / 4 % 16) 0) with
  | some r => bit r.ctx 3
  | none => true

/-- The checks of R265 after the precise ones, up to the home record. -/
def State.forageOut (s : State) (i : Nat) (st : Strand) (k : Nat) (p : W64) (pc : Va) : State × FoOut :=
  if st.ctx == .L && st.bound then (s, .refuse 1)
  else if 4 ≤ bits p.toNat 63 60 then (s, .trap ⟨0x07, 0, false⟩ p)
  else
    let after (s : State) (u : Nat) : State × FoOut :=
      match s.fetch i { st with walked := (pc + 4).toNat / 65536 :: st.walked } k (pc + 4) with
      | (s, .bytes bs) => if runsInF bs then (s, .go u) else (s, .refuse 3)
      | (s, .fault x) => if x.code == 0x0B then (s, .refuse 2) else (s, .trap x ((pc + 4).setWidth 64))
      | (s, _) => (s, .held)
    match s.resolve st k p 0 1 { quiet := true, home := true } false with
    | (s, _, .wait) => (s, .held)
    | (s, q, .stop x) => if x.code == 0x0B then (s, .refuse 2) else (s, .trap x q)
    | (s, q, .refused x) => (s, .trap x q)
    | (s, q, .peer _ _) => (s, .trap ⟨0x07, 0, false⟩ q)
    | (s, _, .place l _ _) =>
      if isDram l && !s.chanOpen (s.fnOf st) (chanOf l) then (s, .refuse 2)
      else after s (unitOfLoc l)

/-- The lanes of a context that are away or about to leave (R260). -/
def State.recordsUsed (s : State) (cx : Nat) : Nat :=
  (s.strands.map (fun e =>
    if e.2.cx == cx && e.2.ctx == .L then
      (e.2.lanes.filter (fun l => l.st == .away)).length + ((e.2.pends.filter (fun p => p.op == 0xA0 || p.op == 0xA1)).map (fun p => p.caps.length)).sum
    else 0)).sum

/-- The strand of a continuation: what the lane carries (R262, R263). -/
def continuation (st : Strand) (i k : Nat) (f : Rrr) (pc : Va) : Strand :=
  let first := f.d.toNat
  let count := f.b.toNat % 8 + 1
  let home := match st.fg with | some g => (g.home, g.lane, g.hop) | none => (i, k, 0)
  let l := st.lane k
  { st with
    ctx := .F
    lanes := [{ l with pc := pc + 4, st := .ready, act := none, posted := [], flts := [], lastRun := 0, waitCmds := [], parkWith := none }]
    vregs := []
    sregs := (List.range 56).map (fun n => if first ≤ n ∧ n < first + count then (st.reg32 k n).setWidth 64 else 0)
    js := []
    lcr := Lcr.zero
    run := none
    runEnd := false
    trail := none
    pends := []
    stall := none
    waits := none
    places := []
    walked := []
    routine := .none
    saveForm := none
    readyAt := 0
    passed := 0
    fg := some { home := home.1, lane := home.2.1, first := first, count := count, hop := home.2.2, unit := none, slot := none,
                 queued := false, dest := none, recalled := false, written := 0 } }

/-- Removes a strand. -/
def State.dropStrand (s : State) (j : Nat) : State := { s with strands := tdel s.strands j }

/-- Drops the continuations a lane made earlier, that never left and that no replay will send (R267). -/
def State.dropStale (s : State) (i k : Nat) (st : Strand) : State :=
  let home := match st.fg with | some g => (g.home, g.lane) | none => (i, k)
  let kept (j : Nat) : Bool := (s.func (s.fnOf st)).replays.any (fun r => r.pend.sends j)
  { s with strands := s.strands.filter (fun e => match e.2.fg with
      | some g => !(g.home == home.1 && g.lane == home.2 && g.unit.isNone && g.dest.isNone && e.1 != i && !kept e.1)
      | none => true) }

/-- Issues `forage` or `forage.try` (R264, R265). -/
def forageBody (s : State) (x : Iss) : Act :=
  let hdr := s.hdrOf x.st
  let code := if x.st.ctx == .L && hdr.forage = 0 then 0x03
    else if (match x.st.fg with | some g => g.hop == 15 | none => false) then 0x19 else 0
  if code != 0 then .done { s := if x.g = 0 then s else s.trapLanes x.i x.g code x.pc 4 0, ends := true }
  else
    let ks := lanesOf x.g
    let ptr (k : Nat) : W64 := x.st.pair k x.h.f.a.toNat
    let leaving := ks.filter (fun k => match (s.forageOut x.i x.st k (ptr k) x.pc).2 with | .go _ | .held => true | _ => false)
    if x.st.ctx == .L && !leaving.isEmpty && (decide (hdr.forage < s.recordsUsed x.st.cx + leaving.length) ||
        s.queuesBehind x.i .homeRec (fun t => t.cx == x.st.cx)) then .stall .homeRec
    else
      let vas := (x.pc.toNat + 4) :: ks.filterMap (fun k => s.accessVa x.st k (ptr k) 0 1 false)
      match (if bit ((s.func (s.fnOf x.st)).reg 0) 0 then s.takePages x.i (s.unitOf x.st) (s.fnOf x.st) vas false else some s) with
      | none => .stall .miss
      | some s =>
      let s := ks.foldl (fun s k => s.dropStale x.i k x.st) s
      let base := s.nextId
      let s := ks.foldl (fun s k => s.putStrand (base + k) (continuation x.st x.i k x.h.f x.pc)) { s with nextId := base + 32 }
      pendAct s x (ks.map (fun k => ⟨k, ptr k, BitVec.ofNat 128 (base + k)⟩)) 0 false true

def execForage (f : Rrr) (s : State) : Res := .next (s.issue (hdOf 0xA0 (rrrWord 0xA0 f)) forageBody)
def execForageTry (f : Rrr) (s : State) : Res := .next (s.issue (hdOf 0xA1 (rrrWord 0xA1 f)) forageBody)

/-- A refusal (R267): `forage.try` writes its predicate false, `forage` raises MIG_REFUSED recoverably. -/
def State.refuse (s : State) (i : Nat) (p : Pend) (c : Cap) (cause : Nat) : State :=
  match s.strand i with
  | none => s
  | some st =>
    let one := maskOf (· == c.lane)
    let s := s.countFg st.cx 2
    let s := if p.op == 0xA1 then (s.updStrand i (fun st => st.writePred one (p.f.b.toNat / 8) (fun _ => false))).dropStrand c.data.toNat
      else s.landFault i p [c] c ⟨0x18, cause, true⟩ c.ptr 0
    s.dropCaps i p.id one

/-- Whether a workgroup has a home record for one more departure: those of its lanes that are away and of the
continuations on their way are taken (R260, R265). -/
def State.hasRecord (s : State) (st : Strand) : Bool :=
  let away := (s.strands.map (fun e => if e.2.cx == st.cx && e.2.ctx == .L then (e.2.lanes.filter (fun l => l.st == .away)).length else 0)).sum
  let sent := (s.strands.filter (fun e => e.2.cx == st.cx && (match e.2.fg with
    | some g => g.unit.isNone && g.dest.isSome && ((s.strand g.home).map (fun h => (h.lane g.lane).st)) != some .away | none => false))).length
  decide (away + sent < (s.hdrOf st).forage)

/-- A departure that was let go and finds no home record in a context that a forced save stops waits for the restore
(R260, R275). -/
def State.standBack (s : State) (i : Nat) (st : Strand) (p : Pend) (c : Cap) : State :=
  if ((s.cx st.cx).map Cx.forced).getD false then
    (s.setFunc (s.fnOf st) (fun x => { x with replays := ⟨i, c.lane, { p with caps := [c] }, true⟩ :: x.replays })).dropCaps i p.id (maskOf (· == c.lane))
  else s

/-- Performs a departure that has issued: its checks, then the continuation is sent or the forager stays. A lane of
context L waits for a home record, which its issue found and a replay may not (R265). -/
def State.landForage (s : State) (i : Nat) (p : Pend) (c : Cap) : State :=
  match s.strand i with
  | none => s
  | some st =>
    let one := maskOf (· == c.lane)
    let j := c.data.toNat
    let sent := match (s.strand j).bind Strand.fg with | some g => g.dest.isSome | none => false
    if sent || st.pends.any (fun q => q.id != p.id && q.caps.any (·.lane == c.lane)) then s
    else
      match s.forageOut i st c.lane c.ptr p.pc with
      | (s, .held) => s
      | (s, .trap x a) => (s.landFault i p [c] c x a 0).dropCaps i p.id one
      | (s, .refuse n) => s.refuse i p c n
      | (s, .go u) =>
        match st.fg with
        | some g =>
          if g.unit == some u then
            let s := s.updStrand i (fun st => if p.op == 0xA1 then st.writePred one (p.f.b.toNat / 8) (fun _ => true) else st)
            let s := s.updFg i (fun g => { g with first := p.f.d.toNat, count := p.f.b.toNat % 8 + 1 })
            (s.dropCaps i p.id one).dropStrand j
          else s.updFg j (fun g => { g with dest := some u })
        | none => if s.hasRecord st then s.updFg j (fun g => { g with dest := some u }) else s.standBack i st p c

/-- The departure a continuation belongs to: strand, pending instruction, lane. -/
def State.departureOf (s : State) (j : Nat) : Option (Nat × Pend × Cap) :=
  s.strands.findSome? (fun e => e.2.pends.findSome? (fun p =>
    if p.op == 0xA0 || p.op == 0xA1 then (p.caps.find? (fun c => c.data.toNat == j)).map (fun c => (e.1, p, c)) else none))

/-- A continuation is accepted (R261, R270): it takes its thread's history and pending faults, one hop more,
and the lane is away, or the slot it left is free. -/
def State.accepted (s : State) (j i : Nat) (p : Pend) (c : Cap) (u : Nat) (seat queue : Bool) : State :=
  match s.strand i with
  | none => s
  | some st =>
    let l := st.lane c.lane
    let fs := (l.flts ++ (st.pends.flatMap Pend.flts).filter (fun r => r.lane == c.lane))
    let s := s.updStrand j (fun g => { (g.setLane 0 (fun m => { m with
        ord := { l.ord with must := addWrites l.ord.must l.ord.hist }
        preds := if p.op == 0xA1 then m.preds ||| (1#7 <<< (p.f.b.toNat / 8)) else m.preds
        st := if fs.isEmpty then .ready else .fault
        flts := fs.map (fun r => { r with resume := m.pc }) })) with
      fg := g.fg.map (fun f => { f with hop := f.hop + 1, unit := some u, slot := none, queued := queue, dest := none, recalled := false }) })
    let s := s.setArrivals u (fun q => if queue then q ++ [j] else q) 1
    let s := if seat then (if u == s.homeUnit st then s.seatHome j else s.seat j u) else s
    let s := s.countFg st.cx 3
    let s := if st.ctx == .L then s.countFg st.cx 0 else s
    let s : State :=
      if st.ctx == .L then
        (s.updStrand i (fun st => { (st.setLane c.lane (fun l => { l with st := .away, flts := [] })) with
          pends := st.pends.map (fun q => { q with flts := q.flts.filter (fun r => r.lane != c.lane) }) })).dropCaps i p.id (maskOf (· == c.lane))
      else { s with strands := tdel s.strands i, cur := if s.cur == i then j else s.cur }
    let s := if fs.isEmpty then s else (s.setArrivals u (fun q => q.filter (· != j)) 0).recall j
    if st.ctx == .L then s.settle i else s

/-- CONTINUATION_ARRIVAL (R261): accepted into its home record, a slot that no queued continuation may take, or the
arrival queue, or refused; a core that has left the slice since, or is leaving it, refuses with cause SLICE (R266). A unit that is being
reset takes only what comes from a unit in the same reset, whose recall waits for it (R278). -/
def execContinuationArrival (fg : Nat) (s : State) : Res :=
  .next (match s.strand fg with
    | none => s
    | some g =>
      match g.fg, s.departureOf fg with
      | some f, some (i, p, c) =>
        match f.dest with
        | none => s
        | some u =>
          if s.unitReset u && !(((s.strand i).map s.unitOf).any s.unitReset) then s
          else
          let s := s.seatAll u
          if u < 1024 && !s.coreOpen (s.fnOf g) u then ((s.updFg fg (fun f => { f with dest := none })).refuse i p c 2).settle i
          else if u < 1024 && u == s.homeUnit g then s.accepted fg i p c u true false
          else if s.slotFree u (s.fnOf g) then s.accepted fg i p c u true false
          else if (s.arrivalsOf u).length < 32 then s.accepted fg i p c u false true
          else ((s.updFg fg (fun f => { f with dest := none })).refuse i p c 0).settle i
      | _, _ => s)

/-- ARRIVAL_QUEUE_ACCEPT (R261): a free slot goes to the oldest queued continuation that may take it. -/
def execArrivalQueueAccept (u : Nat) (s : State) : Res :=
  .next (s.seatQueued u)

/-! ## home and fstat (R271, R273) -/

/-- `home` (R271): its effect comes when the run has ended. -/
def execHome (f : Rrr) (s : State) : Res :=
  .next (s.issue (hdOf 0xA2 (rrrWord 0xA2 f)) fun s x =>
    .done { s := s.putStrand x.i (x.st.mapLanes x.m (fun _ l => { l with act := some .home })), ends := true })

/-- HOME_RETURN (R271): the carried registers and predicates return to the lane, which goes on after `home`. -/
def execHomeReturn (fg : Nat) (s : State) : Res :=
  .next (match s.strand fg with
    | none => s
    | some g =>
      match g.fg with
      | none => s
      | some f =>
        if (g.lane 0).act == some .home && f.unit.isNone && f.dest.isNone && !g.runEnd && (g.lane 0).st == .ready && f.hop != 0 then
          let g' := g.setLane 0 (fun l => { l with act := none, ord := { l.ord with must := addWrites l.ord.must l.ord.hist } })
          let s := ((s.putStrand fg g').bringHome fg f.home f.lane ((g.lane 0).pc + 4)).countFg g.cx 1
          let s := s.unstall .homeRec (fun t => t.cx == g.cx)
          s.settle f.home
        else s)

/-- A forager statistic (R273). -/
def State.fstatOf (s : State) (st : Strand) (sel : Nat) : Word :=
  let u := s.unitOf st
  if sel < 5 && st.ctx == .S then 0
  else
    match sel with
    | 4 => BitVec.ofNat 32 ((s.strands.map (fun e => if e.2.cx == st.cx then (e.2.lanes.filter (fun l => l.st == .away)).length else 0)).sum)
    | 5 => BitVec.ofNat 32 (s.strands.filter (fun e => match e.2.fg with
        | some g => g.unit == some u && !g.queued && g.dest.isNone && (e.2.lane 0).st != .fault | none => false)).length
    | 6 => BitVec.ofNat 32 (s.arrivalsOf u).length
    | 7 => if u < 1024 then (s.core u).arrived else (s.score u).arrived
    | n => (((s.cx st.cx).map Cx.fstat).getD []).getD n 0

/-- `fstat`, once per group (R273). -/
def execFstat (f : Rrr) (s : State) : Res :=
  .next (s.issue (hdOf 0xA3 (rrrWord 0xA3 f)) fun s x =>
    let v := s.fstatOf x.st x.h.f.x.toNat
    .done { s := s.putStrand x.i (x.st.write32 x.m x.h.f.d.toNat (fun _ => v) (some (.u v))), dst := .reg x.h.f.d.toNat })

end Sys2Proof.Machine
end

