-- ==== Sys2Proof/Machine/Order.lean ====
section
/-! DEFINITION. The steps in which writes reach their homes and become visible (R195, R210 to R218), and the steps
of the page walkers (R179, R184, R185). -/
namespace Sys2Proof.Machine

/-- APPLY_AT_HOME (R193, R195, R198 to R200): `err` is what a peer answers. -/
def execApplyAtHome (w : Nat) (err : Byte) (s : State) : Res :=
  .next (match s.inflight.find? (fun v => v.id == w) with
    | some x => if s.mayApply x then s.applyWrite x err.toNat else s
    | none => s)

/-- VIEW_UPDATE (R218): an applied write becomes visible to path p of a die; from die 80 on it stands for the
last of the observers: the write is visible to all of them. Writes of one beat to one aligned unit go together (R230). -/
def execViewUpdate (w : Nat) (p : Path) (die : Nat) (s : State) : Res :=
  .next (match s.applied.find? (fun v => v.id == w) with
    | none => s
    | some x =>
      let all := decide (80 ≤ die)
      if !s.mayShow x (if all then none else some p) (fun v => v.all || (!all && (v.strong || v.vis.contains (p, die)))) then s
      else if all then { s with applied := s.applied.map (fun v => if x.mate v then { v with all := true } else v) }.fold
      else (s.reveal x p die).fold)

/-- What the accesses of a core that wait for a missing page need of it: a fetch X, an access what it is. A line
operation of `cache` makes its walk without an access when it performs (R179, R207). -/
def State.missNeeds (s : State) (x : Miss) (core : Nat) : List Need :=
  s.strands.flatMap (fun e =>
    if s.unitOf e.2 != core || s.fnOf e.2 != x.fn then []
    else
      (if e.2.stall == some .fetch then [{ x := true }] else []) ++
      e.2.pends.flatMap (fun p =>
        if (p.op == 0xA0 || p.op == 0xA1) && (p.pc.toNat + 4) / 65536 == x.page then [{ x := true }]
        else if isMem p.op && p.op != 0x9C && p.caps.any (fun c => (s.capVa e.2 p c).map (· / 65536) == some x.page) then [accNeed p.op] else []))

/-- The miss that a die's walkers take next: of the misses in its queue of 1,024 that none has taken, the oldest of the
function whose turn it is (R184, R185). -/
def Die.walkPick (d : Die) : Option Miss :=
  let q := (d.misses.take 1024).filter (fun m => !m.walking)
  let least (ms : List Miss) : Option Nat := match ms with
    | [] => none
    | m :: ms => some (ms.foldl (fun a b => min a b.fn) m.fn)
  ((least (q.filter (fun m => decide (d.walkFn < m.fn)))).or (least q)).bind (fun f => q.find? (·.fn == f))

/-- Each of a die's 64 walkers that is free takes the miss whose turn it is (R184, R185). -/
def Die.startWalks (d : Die) : Die :=
  (List.range (min 64 d.misses.length)).foldl (fun d _ =>
    if 64 ≤ (d.misses.filter Miss.walking).length then d
    else
      match d.walkPick with
      | none => d
      | some m => { d with misses := d.misses.map (fun x => if x == m then { x with walking := true } else x), walkFn := m.fn }) d

/-- What an engine's walk of a page gives: a fill, or where there is none the note that the page was walked. -/
def State.engWalk (s : State) (die : Nat) (x : Miss) : State :=
  match x.eng with
  | none => s
  | some w =>
    let t := (s.translate none die x.fn (x.page * 65536) { r := !w, w := w } false).1
    if (t.die die).tlb.any (·.serves x.fn (x.page * 65536) w) then t
    else t.setDie die (fun d => { d with walked := (x.fn, x.page) :: d.walked })

/-- PAGE_WALK (R179, R184 to R186): the walkers of a die take the misses whose turn it is, and the oldest walk of function
f ends: the fill goes to the die TLB and to every core that waits. What a walk finds wrong is the fault of the accesses
that wait, and the ATS side of a host page is theirs to ask for. -/
def execPageWalk (die f : Nat) (s : State) : Res :=
  let s := s.setDie die Die.startWalks
  .next (match (s.die die).misses.find? (fun m => m.walking && m.fn == f) with
    | none => s
    | some x =>
      let t := s.setDie die (fun d => { d with misses := d.misses.erase x })
      let go (t : State) (core : Nat) : State := (s.missNeeds x core).foldl (fun t n => (t.translate (some core) die f (x.page * 65536) n false).1) t
      let t := (x.cores.foldl go t).engWalk die x
      { t.setDie die (fun d => { d with ats := (s.die die).ats }) with out := s.out })

end Sys2Proof.Machine
end

