-- ==== Sys2Proof/Machine/Fresh.lean ====
section
/-! DEFINITION. Fresh threads and contexts: every register 0, every lane ready at one address. -/
namespace Sys2Proof.Machine

/-- A lane ready at an address. -/
def Lane.at (pc : Va) : Lane := { Lane.never with pc := pc, st := .ready }

/-- A strand of a context whose lanes are ready at an address, every register 0. -/
def Strand.at (c : Ctx) (cx : Nat) (pc : Va) (lanes : Nat) : Strand where
  ctx := c
  cx := cx
  wid := 0
  lanes := List.replicate lanes (Lane.at pc)
  vregs := List.replicate 56 (.u 0)
  sregs := List.replicate 56 0
  js := List.replicate 16 0
  lcr := Lcr.zero
  run := none
  runEnd := false
  trail := none
  pends := []
  popped := 0
  stall := none
  waits := none
  places := []
  routine := .none
  saveForm := none
  deferred := []
  readyAt := 0
  passed := 0
  fg := none

/-- A resident, started context of the PF on a unit. -/
def Cx.at (h : Header) (image : W64) (core : Nat) (strands : List Nat) (lead : Option Nat) : Cx where
  hdr := h
  image := image
  args := 0
  node := 0
  wg := 0
  fn := 0
  slice := 0
  core := core
  resident := true
  started := true
  strands := strands
  lead := lead
  waggle := []
  freed := 0
  waggleOrd := []
  wqShared := 0
  bars := List.replicate h.barriers {}
  nbStk := false
  nbStkcode := 0
  sramBase := 0
  frame := none
  privBase := 0
  privStride := 0
  fstat := List.replicate 8 0
  mstk := false
  mstkcode := 0
  mfstep := 0
  werr := 0
  wstep := 0
  mwids := []
  preempt := none
  forced := false
  saveSlot := none
  savedForm := none
  mheld := []
  swOff := none
  saveBad := none
  readyAge := 0
  prio := 0
  admittedAt := 0
  order := Ord.empty

end Sys2Proof.Machine
end

