-- ==== Sys2Proof/Machine/Memory.lean ====
section
/-! DEFINITION. The issue of the memory instructions (R201 to R207) and the fences (R219, R220). -/
namespace Sys2Proof.Machine

/-! ## Miss-buffer entries (R185, R186) -/

/-- The addresses that the lanes of an access translate. -/
def State.accessVas (s : State) (x : Iss) : List Nat :=
  let op := x.h.row.op
  (lanesOf x.g).filterMap (fun k =>
    s.accessVa x.st k (x.st.pair k x.h.f.a.toNat) (accOff op x.h.f) (accSize op x.h.f) (isAtom op || isRed op) (op != 0x9C))

/-- Takes a miss-buffer entry for each new missing page, or answers none when the core has none for it. -/
def State.takeMisses (s : State) (x : Iss) (w : Bool) : Option State :=
  s.takePages x.i (s.unitOf x.st) (s.fnOf x.st) (s.accessVas x) w

/-! ## Loads, stores, strong accesses, atomics and reductions -/

/-- What each lane of an access captures of its thread's memory order, its writes numbered from `id` + 1 (R213), and what
an `ld.acq` acquires for all that follows it (R216). -/
def ordsOf (x : Iss) (caps : List Cap) (id : Nat) : List PendOrd :=
  caps.mapIdx (fun j c =>
    let o := (x.st.lane c.lane).ord
    let m := if isRel x.h.row.op then o.rel ||| x.h.f.b else 0
    ⟨c.lane, if makesWrite x.h.row.op then id + 1 + 2 * j else 0, o.must, onPaths o.hist (o.rel ||| m), m, none,
      if isAcq x.h.row.op then [(id + 1, x.h.f.b)] else []⟩)

/-- Enters the writes of an access that has just issued in its lanes' histories (R213). -/
def State.issued (s : State) (i id : Nat) : State :=
  match (s.strand i).map (fun st => (st, st.pends.find? (fun p => p.id == id))) with
  | some (st, some p) =>
    (p.ords.filter (fun o => o.wid != 0)).foldl (fun s o =>
      let c := (p.caps.find? (·.lane == o.lane)).getD ⟨o.lane, 0, 0⟩
      let q := s.capPath st p c
      s.learn i o.lane p.seq ([(o.wid, q)] ++ (if accSize p.op p.f == 16 && q != .core && q != .comb then [(o.wid + 1, q)] else [])) [] []) s
  | _ => s

/-- Records a class-L access of memory with what its lanes capture of their threads' order. -/
def memPend (s : State) (x : Iss) (caps : List Cap) (cnt : Nat) (tagU : Bool) : Act :=
  match pendAct s x caps cnt tagU false (ordsOf x caps s.nextId) with
  | .done o => .done (if caps.isEmpty then o else { o with s := o.s.issued x.i s.nextId })
  | a => a

/-- The data a lane hands to a store, reduction or atomic. -/
def Iss.data (x : Iss) (k : Nat) : W128 :=
  let d := x.h.f.d.toNat
  let op := x.h.row.op
  let size := accSize op x.h.f
  if isLoad op || isAcq op || op == 0x9C then 0
  else if op == 0x97 then (if size == 8 then x.st.quad k d else (x.st.pair k d).setWidth 128)
  else if size == 16 then x.st.quad k d
  else if size == 8 then (x.st.pair k d).setWidth 128
  else (x.st.src k x.h.f.d).setWidth 128

/-- How many registers the result of an access fills. -/
def accCount (op : Nat) (wide : Bool) (f : Rrr) : Nat :=
  if isLoad op || isAcq op || isAtom op then
    match resultBits op f with
    | 128 => if wide then 2 else 4
    | 64 => if wide then 1 else 2
    | _ => 1
  else 0

/-- Issues a memory access in each lane whose guard is true (R201): it captures its pointer and data, and
stalls while the core has no miss-buffer entry for it. -/
def memIssue (s : State) (x : Iss) : Act :=
  let op := x.h.row.op
  let n := accNeed op
  match s.takeMisses x n.w with
  | none => .stall .miss
  | some s =>
    let a := x.h.f.a.toNat
    let ptr (k : Nat) : W64 := x.st.pair k a
    let one := (isLoad op || isAcq op) && x.st.ctx == .L && x.st.pairU a && bits (ptr (lowest x.g)).toNat 63 60 != 3
    memPend s x ((lanesOf x.g).map (fun k => ⟨k, ptr k, x.data k⟩)) (accCount op x.st.ctx.wide x.h.f) one

/-- `cache` (R207): steps 1 and 2 of R175 trap precisely for OP 2 to 4. -/
def cacheIssue (s : State) (x : Iss) : Act :=
  let ptr (k : Nat) : W64 := x.st.pair k x.h.f.a.toNat
  let bad (k : Nat) : Bool :=
    let p := (ptr k).toNat
    let sp := bits p 63 60
    decide (2 ≤ x.h.f.d.toNat) && (decide (6 ≤ sp) || !spaceOk sp x.st.ctx || !spaceZeros sp p)
  let m := maskOf (fun k => inMask x.g k && bad k)
  let g := x.g &&& ~~~m
  match s.takeMisses { x with g := g } false with
  | none => .stall .miss
  | some s =>
    let s := if m = 0 then s else s.trapLanes x.i m 0x07 x.pc 4 0
    pendAct s x ((lanesOf g).map (fun k => ⟨k, ptr k, 0⟩)) 0 false

def execLdZ8 (f : Rrr) (s : State) : Res := .next (s.issue (hdOf 0x80 (rrrWord 0x80 f)) memIssue)
def execLdS8 (f : Rrr) (s : State) : Res := .next (s.issue (hdOf 0x81 (rrrWord 0x81 f)) memIssue)
def execLdZ16 (f : Rrr) (s : State) : Res := .next (s.issue (hdOf 0x82 (rrrWord 0x82 f)) memIssue)
def execLdS16 (f : Rrr) (s : State) : Res := .next (s.issue (hdOf 0x83 (rrrWord 0x83 f)) memIssue)
def execLdB32 (f : Rrr) (s : State) : Res := .next (s.issue (hdOf 0x84 (rrrWord 0x84 f)) memIssue)
def execLdB64 (f : Rrr) (s : State) : Res := .next (s.issue (hdOf 0x85 (rrrWord 0x85 f)) memIssue)
def execLdB128 (f : Rrr) (s : State) : Res := .next (s.issue (hdOf 0x86 (rrrWord 0x86 f)) memIssue)
def execStB8 (f : Rrr) (s : State) : Res := .next (s.issue (hdOf 0x87 (rrrWord 0x87 f)) memIssue)
def execStB16 (f : Rrr) (s : State) : Res := .next (s.issue (hdOf 0x88 (rrrWord 0x88 f)) memIssue)
def execStB32 (f : Rrr) (s : State) : Res := .next (s.issue (hdOf 0x89 (rrrWord 0x89 f)) memIssue)
def execStB64 (f : Rrr) (s : State) : Res := .next (s.issue (hdOf 0x8A (rrrWord 0x8A f)) memIssue)
def execStB128 (f : Rrr) (s : State) : Res := .next (s.issue (hdOf 0x8B (rrrWord 0x8B f)) memIssue)
def execLdAcqB32 (f : Rrr) (s : State) : Res := .next (s.issue (hdOf 0x8C (rrrWord 0x8C f)) memIssue)
def execLdAcqB64 (f : Rrr) (s : State) : Res := .next (s.issue (hdOf 0x8D (rrrWord 0x8D f)) memIssue)
def execStRelB32 (f : Rrr) (s : State) : Res := .next (s.issue (hdOf 0x8E (rrrWord 0x8E f)) memIssue)
def execStRelB64 (f : Rrr) (s : State) : Res := .next (s.issue (hdOf 0x8F (rrrWord 0x8F f)) memIssue)
def execAtomAdd (f : Rrr) (s : State) : Res := .next (s.issue (hdOf 0x90 (rrrWord 0x90 f)) memIssue)
def execAtomMinS (f : Rrr) (s : State) : Res := .next (s.issue (hdOf 0x91 (rrrWord 0x91 f)) memIssue)
def execAtomMaxS (f : Rrr) (s : State) : Res := .next (s.issue (hdOf 0x92 (rrrWord 0x92 f)) memIssue)
def execAtomAnd (f : Rrr) (s : State) : Res := .next (s.issue (hdOf 0x93 (rrrWord 0x93 f)) memIssue)
def execAtomOr (f : Rrr) (s : State) : Res := .next (s.issue (hdOf 0x94 (rrrWord 0x94 f)) memIssue)
def execAtomXor (f : Rrr) (s : State) : Res := .next (s.issue (hdOf 0x95 (rrrWord 0x95 f)) memIssue)
def execAtomXchg (f : Rrr) (s : State) : Res := .next (s.issue (hdOf 0x96 (rrrWord 0x96 f)) memIssue)
def execAtomCas (f : Rrr) (s : State) : Res := .next (s.issue (hdOf 0x97 (rrrWord 0x97 f)) memIssue)
def execAtomFadd (f : Rrr) (s : State) : Res := .next (s.issue (hdOf 0x98 (rrrWord 0x98 f)) memIssue)
def execAtomBfadd2 (f : Rrr) (s : State) : Res := .next (s.issue (hdOf 0x99 (rrrWord 0x99 f)) memIssue)
def execRedAdd (f : Rrr) (s : State) : Res := .next (s.issue (hdOf 0x9A (rrrWord 0x9A f)) memIssue)
def execRedFadd (f : Rrr) (s : State) : Res := .next (s.issue (hdOf 0x9B (rrrWord 0x9B f)) memIssue)
def execCache (f : Rrr) (s : State) : Res := .next (s.issue (hdOf 0x9C (rrrWord 0x9C f)) cacheIssue)

/-! ## fence and xfence -/

/-- `fence` (R219): the wait for the lanes' earlier work, then the acquire and the release side. A load that is still
pending, because the mask does not name its path, acquires for what follows the fence once it returns (R216). With COMB in
a comb instance, the writes of its ended commands are among them (R361). -/
def fenceBody (s : State) (x : Iss) : Act :=
  let m := x.h.f.b
  if !(lanesOf x.g).all (fun k => s.workDone x.i k m s.nextId) then .stall .fence
  else
    let later (p : Pend) (o : PendOrd) : PendOrd :=
      if inMask x.g o.lane && (isLoad p.op || isAcq p.op || isAtom p.op) then { o with acqs := o.acqs ++ [(s.nextId, m)] } else o
    let own := if m.getLsbD 3 && x.st.ctx == .S then ((tget s.insts x.st.cx).map Inst.wids).getD [] else []
    .done { s := s.putStrand x.i { (x.st.mapLanes x.g (fun _ l =>
      let h := addWrites l.ord.hist own
      { l with ord := { l.ord with hist := h, must := addWrites l.ord.must (onPaths h m), rel := l.ord.rel ||| m } })) with
        pends := x.st.pends.map (fun p => { p with ords := p.ords.map (later p) }) } }

def execFence (f : Rrr) (s : State) : Res := .next (s.issue (hdOf 0x9D (rrrWord 0x9D f)) fenceBody)

/-- `xfence` (R220). -/
def xfenceBody (s : State) (x : Iss) : Act :=
  let c1 := pathOf (x.h.f.d.toNat % 8)
  let c2 := pathOf (x.h.f.a.toNat % 8)
  let set := ((lanesOf x.m).flatMap (fun k => ((x.st.lane k).ord.hist.filter (fun e => e.2 == c1)).map (·.1))).eraseDups
  if s.unapplied set.contains then .stall .fence
  else
    let die := dieOfUnit (s.unitOf x.st)
    let s := { s with applied := s.applied.map (fun (w : Wr) =>
      if set.contains w.id && !w.vis.contains (c2, die) then { w with vis := w.vis ++ [(c2, die)] } else w) }
    let live := (set.filter (fun i => s.applied.any (fun w => w.id == i))).map (fun i => (i, c2))
    .done { s := s.putStrand x.i (x.st.mapLanes x.m (fun _ l =>
      { l with ord := { l.ord with hist := addWrites l.ord.hist live, must := addWrites l.ord.must live } })) }

def execXfence (f : Rrr) (s : State) : Res := .next (s.issue (hdOf 0x9E (rrrWord 0x9E f)) xfenceBody)

/-- FENCE_WAIT_END (R219, R220): a strand stalled at a fence tries its instruction again. -/
def execFenceWaitEnd (st : Nat) (s : State) : Res :=
  .next (s.updStrand st (fun t => if t.stall == some .fence then { t with stall := none } else t))

end Sys2Proof.Machine
end

