-- ==== Sys2Proof/Machine/Bar.lean ====
section
/-! DEFINITION. Named barriers (R253 to R257). -/
namespace Sys2Proof.Machine

/-- The barrier number of a barrier instruction (R255). -/
def barNo (f : Rrr) : Nat := f.d.toNat + 64 * (f.x.toNat % 8)

/-- A barrier instruction that traps with BAR_MISUSE in every lane of its group. -/
def barMisuse (s : State) (x : Iss) : Act := .done { s := s.trapLanes x.i x.m 0x20 x.pc 4 0 }

/-- The barrier an instruction names in the context of its strand, or none past BARRIERS (R253). -/
def State.barOf (s : State) (x : Iss) (n : Nat) : Option Bar :=
  (s.cx x.st.cx).bind (fun c => if n < c.hdr.barriers then some (c.bars.getD n {}) else none)

/-- A barrier written back. -/
def State.setBar (s : State) (c n : Nat) (b : Bar) : State := s.updCx c (fun x => { x with bars := x.bars.set n b })

/-- Whether a lane of a context waits on barrier n. -/
def State.barWaited (s : State) (c n : Nat) : Bool :=
  s.strands.any (fun e => e.2.cx == c && e.2.lanes.any (fun l =>
    l.st == .bar && (match l.act with | some (.bar j _ _) => j == n | _ => false)))

/-- `bar.init`, once per group with the operands of its lowest lane (R255). -/
def barInitBody (s : State) (x : Iss) : Act :=
  let n := barNo x.h.f
  let k := lowest x.m
  let th := (x.st.src k x.h.f.a).toNat % 2 ^ 12
  match s.barOf x n with
  | none => barMisuse s x
  | some b =>
    if (b.valid && (b.out != 0 || s.barWaited x.st.cx n)) || decide (2048 < th) then barMisuse s x
    else .done { s := s.setBar x.st.cx n { b with
      valid := true, threads := th, pending := ((x.st.src k x.h.f.b).toNat % 2 ^ 31 : Nat), arrived := 0
      err := 0, lerr := 0, cnterr := false, carry := [], lcarry := [] } }

/-- `bar.arrive`: each lane of the group arrives, releasing its CORE history (R221, R255). -/
def barArriveBody (s : State) (x : Iss) : Act :=
  let n := barNo x.h.f
  match s.barOf x n with
  | none => barMisuse s x
  | some b =>
    let k := (lanesOf x.m).length
    if !b.valid || b.cnterr || decide (b.threads < b.arrived + k) then barMisuse s x
    else
      let h := (lanesOf x.m).foldl (fun h k => addWrites h (onPaths (x.st.lane k).ord.hist 1)) b.carry
      .done { s := (s.setBar x.st.cx n { b with arrived := b.arrived + k, carry := h }).checkBar x.st.cx n }

/-- `bar.expect` (R255). -/
def barExpectBody (s : State) (x : Iss) : Act :=
  let n := barNo x.h.f
  match s.barOf x n with
  | none => barMisuse s x
  | some b =>
    let v : Int := ((x.st.src (lowest x.m) x.h.f.a).toNat % 2 ^ 31 : Nat)
    if !b.valid || b.cnterr || decide (2 ^ 31 - 1 < b.pending + v) then barMisuse s x
    else .done { s := (s.setBar x.st.cx n { b with pending := b.pending + v }).checkBar x.st.cx n }

/-- `bar.wait`: the wait itself is the end of the run (R256). -/
def barWaitBody (s : State) (x : Iss) : Act :=
  let n := barNo x.h.f
  match s.barOf x n with
  | none => barMisuse s x
  | some _ =>
    .done {
      s := s.putStrand x.i (x.st.mapLanes x.m (fun k l =>
        { l with act := some (.bar n (bit (x.st.src k x.h.f.a).toNat 0) (bit x.h.f.x.toNat 3)) }))
      ends := true }

/-- `bar.test`: a lane for which it is true acquires what the phase released (R221, R255). -/
def barTestBody (s : State) (x : Iss) : Act :=
  let n := barNo x.h.f
  match s.barOf x n with
  | none => barMisuse s x
  | some b =>
    if !b.valid || b.cnterr then barMisuse s x
    else
      let p (k : Nat) : Bool := b.phase != bit (x.st.src k x.h.f.b).toNat 0
      let st := x.st.acquire (maskOf (fun k => inMask x.m k && p k)) b.lcarry 0x3F
      .done { s := s.putStrand x.i (st.writePred x.m (x.h.f.a.toNat % 8) p) }

/-- `bar.inval`: waiting lanes are released with BAR_MISUSE (R255). -/
def barInvalBody (s : State) (x : Iss) : Act :=
  let n := barNo x.h.f
  match s.barOf x n with
  | none => barMisuse s x
  | some b => .done { s := (s.setBar x.st.cx n { b with valid := false, cnterr := false }).releaseBar x.st.cx n }

def execBarInit (f : Rrr) (s : State) : Res := .next (s.issue (hdOf 0xC6 (rrrWord 0xC6 f)) barInitBody)
def execBarArrive (f : Rrr) (s : State) : Res := .next (s.issue (hdOf 0xC7 (rrrWord 0xC7 f)) barArriveBody)
def execBarExpect (f : Rrr) (s : State) : Res := .next (s.issue (hdOf 0xC8 (rrrWord 0xC8 f)) barExpectBody)
def execBarWait (f : Rrr) (s : State) : Res := .next (s.issue (hdOf 0xC9 (rrrWord 0xC9 f)) barWaitBody)
def execBarTest (f : Rrr) (s : State) : Res := .next (s.issue (hdOf 0xCA (rrrWord 0xCA f)) barTestBody)
def execBarInval (f : Rrr) (s : State) : Res := .next (s.issue (hdOf 0xCB (rrrWord 0xCB f)) barInvalBody)

/-- Counts landed bytes of a command against barrier n (R229, R254): a barrier that is not valid discards
them, and a count past its range sets CNTERR. -/
def State.barLand (s : State) (c n bytes : Nat) (w : List (Nat × Path)) : State :=
  match s.cx c with
  | none => s
  | some cx =>
    let b := cx.bars.getD n {}
    if !b.valid || bytes = 0 then s
    else
      let p := b.pending - (bytes : Int)
      let b := { b with carry := addWrites b.carry w }
      if p < -(2 ^ 31) then (s.setBar c n { b with pending := -(2 ^ 31), cnterr := true }).releaseBar c n
      else (s.setBar c n { b with pending := p }).checkBar c n

/-- Records a command's non-OK status at its barrier, before its unlanded bytes are counted (R257). -/
def State.barStatus (s : State) (c n st : Nat) (qs : Bool) : State :=
  s.updCx c (fun x => { x with bars := x.bars.modify n (fun b => { b with
    stk := true
    stkcode := if b.stkcode = 0 then st else b.stkcode
    err := if qs || st == 7 || st == 1 || b.err != 0 then b.err else st }) })

end Sys2Proof.Machine
end

