-- ==== Sys2Proof/Machine/Copy.lean ====
section
/-! DEFINITION. Engine commands (R225 to R252): their issue, what an engine reads and writes, tensor records,
the walks of `cp.l`, `cp.t` and `cp.g`, and the leases under which beats land. `cp.gcm` is in Gcm. -/
namespace Sys2Proof.Machine

/-! ## Pointers and bytes of an engine -/

/-- What a part of a command gives: a value, the status it ends the command with, or a wait for the host. -/
inductive Eg (α : Type) where
  | ok (v : α)
  | bad (st : Nat)
  | wait

/-- Steps 1 to 3 of R175 on n bytes, with the spaces an engine may use (R228, R239). -/
def engPtrOk (p : W64) (n : Nat) : Bool :=
  let sp := bits p.toNat 63 60
  decide (sp < 5) && sp != 3 && spaceZeros sp p.toNat && decide (p.toNat % 2 ^ spaceWidth sp + n ≤ 2 ^ spaceWidth sp)

/-- The status of a failure found by an engine (R232). A group pointer or a peer's window that does not hold
the bytes ends a `cp.l` XLATE and any other command DESC, and so does a tensor element, a row of a gather or a scale
entry that passes the end of its space's address field; a LOST granule ends POISON (notes/assumptions/22.md). -/
def engStatus (op code : Nat) : Nat :=
  match code with
  | 0x0B => 3
  | 0x0C | 0x0D => 4
  | 0x07 => if op == 0xC0 then 2 else 8
  | _ => 2

/-- Translates an access of a die's engine: what the die TLB does not serve takes an entry of the die's miss queue, or
joins the entry of its page, and waits for the walk; it waits at the engine while all 1,024 entries are in use (R185, R186,
R258). A page that has been walked for it with no fill is translated as it stands. -/
def State.engXlate (s : State) (die f va : Nat) (n : Need) : State × Xl :=
  let d := s.die die
  let page := va / 65536
  let w := n.w && !n.quiet
  if !bit ((s.func f).reg 0) 0 || d.tlb.any (·.serves f va w) then s.translate none die f va n false
  else if d.walked.contains (f, page) then
    match s.translate none die f va n false with
    | (s, .wait) => (s, .wait)
    | (s, r) => (s.setDie die (fun d => { d with walked := d.walked.erase (f, page) }), r)
  else if d.misses.any (fun m => m.fn == f && m.page == page) then
    (s.setDie die (fun d => { d with misses := d.misses.map (fun m =>
      if m.fn == f && m.page == page then { m with eng := some (w || m.eng == some true) } else m) }), .wait)
  else if 1024 ≤ d.misses.length then (s, .wait)
  else (s.setDie die (fun d => { d with misses := d.misses ++ [{ fn := f, page := page, cores := [], eng := some w }] }), .wait)

/-- Where n bytes at an offset of a pointer lie, for a command on a die; they cross no 64 KiB page. -/
def State.engSeg (s : State) (die : Nat) (c : Cmd) (p : W64) (off n : Nat) (need : Need) : State × Rs :=
  let sp := bits p.toNat 63 60
  let a := p.toNat % 2 ^ spaceWidth sp + off
  if !engPtrOk p (off + n) then (s, .stop ⟨0x07, 0, false⟩)
  else
    match sp with
    | 0 =>
      let need := { need with who := some (2 * c.id) }
      match (if need.quiet then s.translate none die c.fn a need false else s.engXlate die c.fn a need) with
      | (s, .dram l) => (s, .place l .copy c.fn)
      | (s, .host l) => (s, .place l .copy c.fn)
      | (s, .stop x) => (s, .stop x)
      | (s, .wait) => (s, .wait)
    | 1 =>
      let core := 16 * bits p.toNat 59 54 + bits p.toNat 53 50
      if !s.coreOpen c.fn core then (s, .stop ⟨0x0B, 0, false⟩) else (s, .place (sramLoc core a) .copy c.fn)
    | 2 =>
      match s.cx c.cx with
      | some cx => (s, s.groupPlace cx p.toNat a n)
      | none => (s, .stop ⟨0x07, 0, false⟩)
    | _ => s.peerPlace c.fn (bits p.toNat 59 40) a n need false false

/-- Bytes at one home: their place, how many, and the function whose bytes they are. -/
structure Seg where
  loc : Nat
  n : Nat
  fn : Nat

/-- The places of n bytes at an offset of a pointer, page by page. -/
def State.engSegsFrom (s : State) (die : Nat) (c : Cmd) (p : W64) (need : Need) : Nat → Nat → Nat → State × Eg (List Seg)
  | 0, _, _ => (s, .ok [])
  | fuel + 1, off, n =>
    if n = 0 then (s, .ok []) else
    let a := p.toNat % 2 ^ spaceWidth (bits p.toNat 63 60) + off
    let here := min n (65536 - a % 65536)
    let more (s : State) (l f : Nat) : State × Eg (List Seg) :=
      match s.engSegsFrom die c p need fuel (off + here) (n - here) with
      | (s, .ok ls) => (s, .ok (⟨l, here, f⟩ :: ls))
      | r => r
    match s.engSeg die c p off here need with
    | (s, .place l _ f) => if s.homeHeld l then (s, .wait) else more s l f
    | (s, .peer d o) => more s (peerLoc d o) c.fn
    | (s, .stop x) | (s, .refused x) => (s, .bad (engStatus c.op x.code))
    | (s, .wait) => (s, .wait)

def State.engSegs (s : State) (die : Nat) (c : Cmd) (p : W64) (off n : Nat) (need : Need) : State × Eg (List Seg) :=
  s.engSegsFrom die c p need (n / 65536 + 2) off n

/-- The bytes at resolved places, as the command's path reads them (R210, R217, R230), or the status of a home that
refuses; bytes of another device are its answer, free here. -/
def State.engTake (s : State) (die : Nat) (c : Cmd) : List Seg → State × Eg (List Byte)
  | [] => (s, .ok [])
  | ⟨l, n, f⟩ :: ls =>
    match (if isPeer l then none else s.homeRefuses f l n false) with
    | some x => (s.afterRefusal f l n false x, .bad (engStatus c.op x.code))
    | none =>
      match (if isPeer l then some { s with freeCtr := s.freeCtr + n } else s.look c.ord 0 0 .copy die l n) with
      | none => (s, .wait)
      | some t =>
        let bs := if isPeer l then (List.range n).map (fun i => Config.freeByte (s.freeCtr + i)) else t.viewRead c.ord 0 0 .copy die l n
        match t.engTake die c ls with
        | (s, .ok more) => (s, .ok (bs ++ more))
        | r => r

/-- Reads n bytes at an offset of a pointer. -/
def State.engRead (s : State) (die : Nat) (c : Cmd) (p : W64) (off n : Nat) : State × Eg (List Byte) :=
  match s.engSegs die c p off n { r := true } with
  | (s, .ok ls) => s.engTake die c ls
  | (s, .bad x) => (s, .bad x)
  | (s, .wait) => (s, .wait)

/-- A little-endian value read by an engine. -/
def State.engNat (s : State) (die : Nat) (c : Cmd) (p : W64) (off n : Nat) : State × Eg Nat :=
  match s.engRead die c p off n with
  | (s, .ok bs) => (s, .ok (leNat bs))
  | (s, .bad x) => (s, .bad x)
  | (s, .wait) => (s, .wait)

/-- A write of a beat: a resolved place, the function whose bytes they are, and the bytes. -/
structure Put where
  loc : Nat
  fn : Nat
  bytes : List Byte

/-- The writes of a beat. -/
abbrev Puts := List Put

/-- The status with which a home refuses a landing: a foreign row, a LOST granule or an exhausted channel. -/
def State.landStop (s : State) (g : Seg) : Option Nat :=
  if !isDram g.loc then none
  else if !s.chanServes g.fn (chanOf g.loc) then some 3
  else if (s.granule (granOf g.loc)).lost || s.exhaustedIn g.loc g.n then some 4
  else none

/-- What a refused landing leaves: a channel whose last EPOCH it would pass is exhausted (R376). -/
def State.afterLandStop (s : State) (g : Seg) (st : Nat) : State :=
  if st == 4 then s.afterRefusal g.fn g.loc g.n true ⟨0x0C, 0, false⟩ else s

/-- Resolves where bytes go. -/
def State.engAim (s : State) (die : Nat) (c : Cmd) (p : W64) (off : Nat) (bs : List Byte) : State × Eg Puts :=
  match s.engSegs die c p off bs.length { w := true } with
  | (s, .ok ls) =>
    match ls.findSome? (fun g => (s.landStop g).map (fun st => (g, st))) with
    | some (g, x) => (s.afterLandStop g x, .bad x)
    | none => (s, .ok (ls.foldl (fun (a : Puts × List Byte) g => (a.1 ++ [⟨g.loc, g.fn, a.2.take g.n⟩], a.2.drop g.n)) ([], bs)).1)
  | (s, .bad x) => (s, .bad x)
  | (s, .wait) => (s, .wait)

/-- Applies one COPY write of a command at its home: it enters the history of the issuing thread (R213). -/
def State.engPut (s : State) (die : Nat) (c : Cmd) (p : Put) : State :=
  let l := p.loc
  let bs := p.bytes
  if isPeer l then s.peerSend 0 (peerDev l) bs
  else
    let n := bs.length
    let w : Wr := {
      id := s.nextId, strand := c.strand, lane := c.lane, cx := c.cx, fn := c.fn, path := .copy, die := die, loc := l
      op := .store, data := bs, strong := false, carry := [], vis := [], all := false, cmd := some c.id, wait := 0, pc := 0, ptr := 0
      owner := if p.fn == c.fn then none else some p.fn, beat := c.landed + 1 }
    let s := { s with nextId := s.nextId + 1, applied := s.applied ++ [w] }
    let s := (s.touch l n).setDie die (fun d =>
      { d with queue := d.queue.map (fun q => if q.id == c.id then { q with wids := q.wids ++ [w.id] } else q) })
    let t := s.threadAt c.strand c.lane
    s.learn t.1 t.2 c.id [(w.id, .copy)] [] []

/-- A write cut where it shares an aligned unit of 16 bytes with others: its first and last unit, where it fills them only in
part, and what lies between (R230). -/
def Put.cut (p : Put) : Puts :=
  let n := p.bytes.length
  let a := min n ((16 - p.loc % 16) % 16)
  let b := (n - a) / 16 * 16
  ([⟨p.loc, p.fn, p.bytes.take a⟩, ⟨p.loc + a, p.fn, (p.bytes.drop a).take b⟩, ⟨p.loc + a + b, p.fn, p.bytes.drop (a + b)⟩] : Puts).filter
    (fun q => !q.bytes.isEmpty)

/-- Whether the writes of a beat fill a sector. -/
def Puts.fills (ps : Puts) (sector : Nat) : Bool :=
  (List.range 32).all (fun i => ps.any (fun p => decide (p.loc ≤ 32 * sector + i) && decide (32 * sector + i < p.loc + p.bytes.length)))

/-- Applies the writes of a beat: the sectors they fill lose their poison unless `keep` (R198, R250). -/
def State.engPuts (s : State) (die : Nat) (c : Cmd) (keep : Bool) (ps : Puts) : State :=
  (ps.flatMap Put.cut).foldl (fun s p => s.engPut die c p) { s with poison := if keep then s.poison else s.poison.filter (fun p => !Puts.fills ps p) }

/-! ## The end of a command (R232, R257) -/

/-- The outstanding commands of a context. -/
def State.cmdsOf (s : State) (cx : Nat) : List (Nat × Cmd) :=
  s.dies.flatMap (fun d => (d.2.queue.filter (fun c => c.cx == cx && c.node.isNone)).map (fun c => (d.1, c)))

/-- Ends a command of a die with a status: its barrier's sticky fields, then its unlanded bytes unless it ended
OK or QUIESCED, then OUT; a copy node's command leaves its status in the node (R308). -/
def State.cmdEnd (s : State) (die : Nat) (c : Cmd) (st : Nat) : State :=
  let s := s.setDie die (fun d => { d with
    queue := d.queue.filter (fun q => q.id != c.id)
    engines := d.engines.map (fun e => if e.2.cmd == some c.id then (e.1, { e.2 with cmd := none }) else e) })
  let s := s.countPoison c.fn (2048 + die) st
  let left := if st == 7 then 0 else if c.op == 0xC3 then c.nominal else if st == 0 then 0 else c.nominal - c.landed
  let w := c.wids.map (fun i => (i, Path.copy))
  let s : State :=
    match c.node with
    | some n => s.updNode n (fun x => { x with
        status := if st == 0 then x.status else 0x20 + st, live := x.live - 1, st := .done
        order := { x.order with hist := addWrites x.order.hist w } })
    | none =>
      if c.nb then (if st == 0 then s else s.updCx c.cx (fun x =>
        { x with nbStk := true, nbStkcode := if x.nbStkcode = 0 then st else x.nbStkcode }))
      else
        let s := if st == 0 then s else s.barStatus c.cx c.bar st c.qs
        let s := s.updCx c.cx (fun x => { x with bars := x.bars.modify c.bar (fun b => { b with out := b.out - 1 }) })
        s.barLand c.cx c.bar left w
  (s.unstall .engine (fun t => dieOfUnit (s.homeUnit t) == die)).unstall .cmds (fun t => t.cx == c.cx)

/-! ## Tensor records (R240 to R243) -/

/-- A tensor record's fields. -/
structure TRec where
  rank : Nat
  fmt : Nat
  layout : Nat
  rot : Nat
  kdef : Bool
  k : Nat
  fill : Nat
  base : W64
  ext : List Nat
  str : List Nat       -- stride of dim 0 (unused) to dim 4
  scale : W64
  sstr : Nat
  slay : Nat

/-- The value of n bytes at offset o of a block. -/
def leAt (b : List Byte) (o n : Nat) : Nat := leNat ((b.drop o).take n)

/-- A tensor record read from 64 bytes. -/
def TRec.of (b : List Byte) : TRec where
  rank := leAt b 0 1 % 8
  fmt := leAt b 1 1
  layout := bits (leAt b 2 1) 5 4
  rot := leAt b 2 1 % 8
  kdef := bit (leAt b 3 1) 4
  k := leAt b 3 1 % 16
  fill := leAt b 4 4
  base := BitVec.ofNat 64 (leAt b 8 8)
  ext := (List.range 5).map (fun i => leAt b (16 + 4 * i) 4)
  str := 0 :: (List.range 4).map (fun i => leAt b (36 + 4 * i) 4)
  scale := BitVec.ofNat 64 (leAt b 52 8)
  sstr := leAt b 60 2
  slay := leAt b 62 1 % 4

/-- Half-bytes per element of a format, 0 for a code that is refused (R241). -/
def elemNib (f : Nat) : Nat :=
  match f with
  | 0x01 | 0x13 | 0x14 | 0x18 | 0x1A | 0x1B => 2
  | 0x02 | 0x11 | 0x12 => 4
  | 0x03 | 0x10 => 8
  | 0x04 => 16
  | 0x19 | 0x1C => 1
  | _ => 0
def isRaw (f : Nat) : Bool := 1 ≤ f && f ≤ 4
def isZb (f : Nat) : Bool := f == 0x18 || f == 0x19
def isMx (f : Nat) : Bool := 0x1A ≤ f && f ≤ 0x1C

def TRec.extOf (r : TRec) (i : Nat) : Nat := r.ext.getD i 0
def TRec.strOf (r : TRec) (i : Nat) : Nat := r.str.getD i 0

/-- The rules a record's fields obey (R240 to R243); `b` is the record itself, for its reserved bits. -/
def TRec.ok (r : TRec) (b : List Byte) : Bool :=
  let en := elemNib r.fmt
  let dims (p : Nat → Bool) : Bool := (List.range 5).all p
  decide (1 ≤ r.rank) && decide (r.rank ≤ 5) && en != 0 && decide (r.layout < 2) && decide (r.slay < 3) &&
  leAt b 0 1 / 8 == 0 && !bit (leAt b 2 1) 3 && leAt b 2 1 / 64 == 0 && leAt b 3 1 / 32 == 0 && leAt b 62 1 / 4 == 0 && leAt b 63 1 == 0 &&
  dims (fun i => if i < r.rank then decide (1 ≤ r.extOf i) && decide (r.extOf i < 2 ^ 24) else r.extOf i == 0) &&
  dims (fun i => decide (i < r.rank) || r.strOf i == 0) &&
  bits r.base.toNat 63 60 != 3 && bits r.base.toNat 63 60 != 5 && decide (bits r.base.toNat 63 60 < 6) &&
  spaceZeros (bits r.base.toNat 63 60) r.base.toNat &&
  r.slay == (if isZb r.fmt then 1 - r.layout else if isMx r.fmt then 2 else 0) &&
  (r.slay != 0 || r.scale == 0) && (r.slay == 0 || decide (r.rank ≤ 2)) &&
  (!(isZb r.fmt || isMx r.fmt) || r.extOf 0 % 32 == 0) &&
  (en == 1 || (r.base.toNat % (en / 2) == 0 && dims (fun i => r.strOf i % (en / 2) == 0))) &&
  (!isRaw r.fmt || decide (r.fill < 2 ^ (4 * en))) &&
  (if r.layout == 0 then r.rot == 0
   else !isMx r.fmt && r.rank == 2 && r.extOf 0 % 64 == 0 && r.extOf 1 % 64 == 0 && r.base.toNat % 256 == 0 && r.strOf 1 == 0)

/-- The half-byte offset from BASE of the element at coordinates c (R243). -/
def TRec.nibOf (r : TRec) (c : List Nat) : Nat :=
  let en := elemNib r.fmt
  if r.layout == 0 then
    c.headD 0 * en + 2 * ((List.range r.rank).foldl (fun t i => if i = 0 then t else t + c.getD i 0 * r.strOf i) 0)
  else
    let i := c.getD 1 0; let j := c.getD 0 0
    let L := 32 * en
    let u := j % 64 * en
    let blk := i / 64 * (r.extOf 0 / 64) + j / 64
    let pos := (u / 64 + i % 64 * r.rot) % max (L / 32) 1
    2 * (blk * 64 * L + i % 64 * L + pos * 32) + u % 64

/-- The canonical element index of R246. -/
def TRec.qOf (r : TRec) (i j : Nat) : Nat := (i / 64 * (r.extOf 0 / 64) + j / 64) * 4096 + i % 64 * 64 + j % 64

/-- The scale-tensor offset of the block that holds an element (R242). -/
def TRec.scaleOff (r : TRec) (c : List Nat) : Nat := c.getD 1 0 * r.sstr + c.headD 0 / 32 * (if isZb r.fmt then 2 else 1)

/-! ## Values in flight (R245) -/

/-- The floating format of a code of R241. -/
def fmtOf (f : Nat) : Fmt :=
  match f with
  | 0x11 => fp16 | 0x12 => bf16 | 0x13 => e4m3 | 0x14 => e5m2 | _ => fp32

/-- The value of an MX element under its scale byte (R242). -/
def mxVal (f c x : Nat) : FpNum :=
  if x = 0xFF then .nan
  else
    let v : FpNum :=
      match f with
      | 0x1A => e4m3.val c
      | 0x1B => e5m2.val c
      | _ => .fin (bit c 3) ([0, 1, 2, 3, 4, 6, 8, 12].getD (c % 8) 0) (-1)
    match v with
    | .fin n m e => .fin n m (e + (x : Int) - 127)
    | y => y

/-- Convert to a raw or float destination (R245): bit copy, exact widening, or SatConvert under RNE. Between equal float
formats it is the bit copy (notes/assumptions/60.md). -/
def convert (src : Nat) (code dst : Nat) : Nat :=
  if isRaw dst || src = dst then code
  else
    let F := fmtOf src; let G := fmtOf dst
    if F.mw ≤ G.mw && G.emin ≤ F.emin then G.round 0 (F.val code) else G.sat 0 (F.val code)

/-! ## `cp.t` (R244 to R246) -/

/-- The records and fields of a `cp.t` from what it read at start. -/
structure TCmd where
  s : TRec
  d : TRec
  orig : List Int
  box : List Nat
  perm : List Nat
  soff : Nat
  skip : Nat

def TCmd.of (b : List Byte) : TCmd where
  s := TRec.of ((b.drop 64).take 64)
  d := TRec.of ((b.drop 128).take 64)
  orig := (List.range 5).map (fun i => toSigned 32 (leAt b (16 + 4 * i) 4))
  box := (List.range 5).map (fun i => leAt b (36 + 2 * i) 2)
  perm := (List.range 5).map (fun i => leAt b 46 2 / 8 ^ i % 8)
  soff := leAt b 48 2
  skip := leAt b 52 4

/-- The extent of destination dim i of the walk. -/
def TCmd.walk (t : TCmd) (i : Nat) : Nat := t.box.getD (t.perm.getD i 0) 0
/-- How many elements the box holds. -/
def TCmd.total (t : TCmd) : Nat := (List.range t.s.rank).foldl (fun n i => n * t.box.getD i 0) 1
/-- The nominal bytes (R229): the box, over the dims that the destination record has, in destination elements. -/
def TCmd.nominal (t : TCmd) : Nat := (List.range t.d.rank).foldl (fun n i => n * t.box.getD i 0) 1 * elemNib t.d.fmt / 2

/-- Whether exactly one side is a canonical ZB tensor. -/
def TRec.canonZb (r : TRec) : Bool := isZb r.fmt && r.layout == 1

/-- The rules of a `cp.t` (R244 to R246); `b` is its block and `sc` its SC flag. -/
def TCmd.ok (t : TCmd) (b : List Byte) (sc : Bool) : Bool :=
  let rk := t.s.rank
  let dims (p : Nat → Bool) : Bool := (List.range 5).all p
  let span (i : Nat) : Int := min (t.orig.getD i 0 + t.box.getD i 0) (t.s.extOf i) - 1
  t.s.ok ((b.drop 64).take 64) && t.d.ok ((b.drop 128).take 64) && t.d.rank == rk &&
  leAt b 46 2 / 2 ^ 15 == 0 && leAt b 50 2 == 0 && leAt b 56 8 == 0 &&
  dims (fun i => if i < rk then (t.perm.take rk).contains i else t.perm.getD i 0 == 0) &&
  dims (fun i => if i < rk then t.box.getD i 0 != 0 else t.box.getD i 0 == 0 && t.orig.getD i 0 == 0) &&
  !isMx t.d.fmt && (isRaw t.s.fmt == isRaw t.d.fmt) && (!isRaw t.s.fmt || t.s.fmt == t.d.fmt) &&
  (sc == (t.s.canonZb || t.d.canonZb)) && !(t.s.canonZb && t.d.canonZb) && (!sc || t.soff % 2 == 0) &&
  (!isZb t.d.fmt || t.walk 0 % 32 == 0) &&
  (!t.d.canonZb || ((bits t.d.base.toNat 63 60 == 1 || bits t.d.base.toNat 63 60 == 2) &&
    decide (t.soff + 2 * (t.d.qOf (min (t.walk 1) (t.d.extOf 1) - 1) (min (t.walk 0) (t.d.extOf 0) - 1) / 32) < 65536))) &&
  (!t.s.canonZb || ((bits t.s.base.toNat 63 60 == 1 || bits t.s.base.toNat 63 60 == 2) &&
    (decide (span 0 < max (t.orig.getD 0 0) 0) || decide (span 1 < max (t.orig.getD 1 0) 0) ||
     decide (t.soff + 2 * (t.s.qOf (span 1).toNat (span 0).toNat / 32) < 65536))))

/-- The destination coordinates of walk element e, dim 0 fastest. -/
def TCmd.coord (t : TCmd) (e : Nat) : List Nat :=
  ((List.range t.s.rank).foldl (fun (a : List Nat × Nat) i => (a.1 ++ [a.2 % t.walk i], a.2 / t.walk i)) ([], e)).1

/-- The source coordinate along source dim k of destination coordinates d. -/
def TCmd.srcAt (t : TCmd) (d : List Nat) (k : Nat) : Int :=
  t.orig.getD k 0 + (((t.perm.take t.s.rank).idxOf k |> fun i => d.getD i 0) : Nat)

/-- Whether destination coordinates walk an element inside the source tensor. -/
def TCmd.inSrc (t : TCmd) (d : List Nat) : Bool :=
  (List.range t.s.rank).all (fun k => decide (0 ≤ t.srcAt d k) && decide (t.srcAt d k < t.s.extOf k))

/-- Whether they lie inside the destination tensor. -/
def TCmd.inDst (t : TCmd) (d : List Nat) : Bool := (List.range t.s.rank).all (fun i => decide (d.getD i 0 < t.d.extOf i))

def TCmd.srcCoord (t : TCmd) (d : List Nat) : List Nat := (List.range t.s.rank).map (fun k => (t.srcAt d k).toNat)

/-- The scale-memory place of a pair offset on the core that owns BASE (R246). -/
def State.scaleAt (s : State) (die : Nat) (c : Cmd) (base : W64) (o : Nat) : Eg Nat :=
  match s.engSeg die c base 0 1 { quiet := true } with
  | (_, .place l _ _) => .ok (scaleLoc ((l - 2 ^ 40) / 2 ^ 22) o)
  | (_, .stop x) | (_, .refused x) => .bad (engStatus c.op x.code)
  | _ => .wait

/-- SourceValue: the element as a format code of R241 and a code of that format; ZB and MX elements come as
FP32 (R129, R245). An infinity of MX-E5M2 is no value that saturates: it stays FP32 Inf (notes/assumptions/60.md). -/
def State.srcValue (s : State) (die : Nat) (c : Cmd) (t : TCmd) (d : List Nat) : State × Eg (Nat × Nat) :=
  if !t.inSrc d then (s, .ok (if isRaw t.s.fmt then t.s.fmt else 0x10, t.s.fill))
  else
    let co := t.srcCoord d
    let en := elemNib t.s.fmt
    let nib := t.s.nibOf co
    match s.engNat die c t.s.base (nib / 2) (max 1 (en / 2)) with
    | (s, .bad x) => (s, .bad x)
    | (s, .wait) => (s, .wait)
    | (s, .ok v) =>
      let v := if en == 1 then v / 16 ^ (nib % 2) % 16 else v
      if isZb t.s.fmt then
        let z (xa xb : Nat) : Nat × Nat := (0x10, zbDecode (t.s.fmt == 0x19) v xa xb)
        if t.s.layout == 1 then
          match s.scaleAt die c t.s.base (t.soff + 2 * (t.s.qOf (co.getD 1 0) (co.headD 0) / 32)) with
          | .ok l =>
            match s.look c.ord 0 0 .copy die l 2 with
            | some s => let bs := s.viewRead c.ord 0 0 .copy die l 2; (s, .ok (z (leAt bs 0 1) (leAt bs 1 1)))
            | none => (s, .wait)
          | .bad x => (s, .bad x)
          | .wait => (s, .wait)
        else
          match s.engRead die c t.s.scale (t.s.scaleOff co) 2 with
          | (s, .ok bs) => (s, .ok (z (leAt bs 0 1) (leAt bs 1 1)))
          | (s, .bad x) => (s, .bad x)
          | (s, .wait) => (s, .wait)
      else if isMx t.s.fmt then
        match s.engNat die c t.s.scale (t.s.scaleOff co) 1 with
        | (s, .ok x) => (s, .ok (0x10, match mxVal t.s.fmt v x with
            | .inf n => fp32.sign n 0x7F800000
            | y => fp32.sat 0 y))
        | (s, .bad x) => (s, .bad x)
        | (s, .wait) => (s, .wait)
      else (s, .ok (t.s.fmt, v))

/-- The source values of walk elements. -/
def State.srcValues (s : State) (die : Nat) (c : Cmd) (t : TCmd) : List Nat → State × Eg (List (Nat × Nat))
  | [] => (s, .ok [])
  | e :: es =>
    match s.srcValue die c t (t.coord e) with
    | (s, .ok v) =>
      match s.srcValues die c t es with
      | (s, .ok vs) => (s, .ok (v :: vs))
      | r => r
    | (s, .bad x) => (s, .bad x)
    | (s, .wait) => (s, .wait)

/-- A half-byte write's byte: the other half as it stands at the home (R245). -/
def nibByte (old : Byte) (nib v : Nat) : Byte :=
  if nib % 2 = 0 then BitVec.ofNat 8 (old.toNat / 16 * 16 + v) else BitVec.ofNat 8 (v * 16 + old.toNat % 16)

/-- Half-byte writes at places gathered into byte writes: the last value of each half of one byte. -/
def putNib (ps : Puts) (l f : Nat) (old : Byte) (nib v : Nat) : Puts :=
  if ps.any (·.loc == l) then ps.map (fun p => if p.loc == l then { p with bytes := [nibByte (p.bytes.headD 0) nib v] } else p)
  else ps ++ [⟨l, f, [nibByte old nib v]⟩]

/-- Resolves the writes of destination elements with their codes. -/
def State.aimElems (s : State) (die : Nat) (c : Cmd) (t : TCmd) : List (List Nat × Nat) → Puts → State × Eg Puts
  | [], ps => (s, .ok ps)
  | (d, v) :: es, ps =>
    if !t.inDst d then s.aimElems die c t es ps
    else
      let en := elemNib t.d.fmt
      let nib := t.d.nibOf d
      match s.engAim die c t.d.base (nib / 2) (if en == 1 then [0] else toLE (en / 2) v) with
      | (s, .ok qs) =>
        if en == 1 then
          let q := qs.headD ⟨0, c.fn, []⟩
          let l := q.loc
          s.aimElems die c t es (putNib ps l q.fn (if isPeer l then 0 else (s.homeRead l 1).headD 0) nib v)
        else s.aimElems die c t es (ps ++ qs)
      | (s, .bad x) => (s, .bad x)
      | (s, .wait) => (s, .wait)

/-- Resolves the writes of ZB groups: element codes, then each group's exponent pair (R242, R246). -/
def State.aimGroups (s : State) (die : Nat) (c : Cmd) (t : TCmd) : List (List (List Nat × Nat)) → Puts → State × Eg Puts
  | [], ps => (s, .ok ps)
  | g :: gs, ps =>
    let d := (g.headD ([], 0)).1
    if !t.inDst d then s.aimGroups die c t gs ps
    else
      let zb4 := t.d.fmt == 0x19
      let k := if t.d.kdef then (if zb4 then 3 else 4) else t.d.k
      let (codes, xa, xb) := zbEncode zb4 k (g.map (fun e => fp32.val e.2))
      match s.aimElems die c t ((g.map (·.1)).zip codes) ps with
      | (s, .ok ps) =>
        let pair := toLE 1 xa ++ toLE 1 xb
        if t.d.layout == 1 then
          match s.scaleAt die c t.d.base (t.soff + 2 * (t.d.qOf (d.getD 1 0) (d.headD 0) / 32)) with
          | .ok l => s.aimGroups die c t gs (ps ++ [⟨l, c.fn, pair⟩])
          | .bad x => (s, .bad x)
          | .wait => (s, .wait)
        else
          match s.engAim die c t.d.scale (t.d.scaleOff d) pair with
          | (s, .ok qs) => s.aimGroups die c t gs (ps ++ qs)
          | r => r
      | r => r

/-- Cuts a list into groups of 32. -/
def groups32 {α : Type} : Nat → List α → List (List α)
  | 0, _ => []
  | n + 1, l => if l.isEmpty then [] else l.take 32 :: groups32 n (l.drop 32)

/-- FP32 as the encoder takes it: SatConvert under RNE (R245). -/
def zbInput (v : Nat × Nat) : Nat :=
  if v.1 = 0x10 then fp32.sat 0 (fp32.val v.2) else fp32.sat 0 ((fmtOf v.1).val v.2)

/-- The writes of the beat of a `cp.t` that begins at nominal byte `off`, and its bytes. -/
def State.beatT (s : State) (die : Nat) (c : Cmd) : State × Eg (Puts × Nat) :=
  let t := TCmd.of c.block
  let en := elemNib t.d.fmt
  let n := min 256 (c.nominal - c.landed)
  let es := (List.range (2 * n / en)).map (2 * c.landed / en + ·)
  match s.srcValues die c t es with
  | (s, .bad x) => (s, .bad x)
  | (s, .wait) => (s, .wait)
  | (s, .ok vs) =>
    let ds := es.map t.coord
    let r := if isZb t.d.fmt then s.aimGroups die c t (groups32 16 (ds.zip (vs.map zbInput))) []
      else s.aimElems die c t (ds.zip (vs.map (fun v => convert v.1 v.2 t.d.fmt))) []
    match r with
    | (s, .ok ps) => (s, .ok (ps, n))
    | (s, .bad x) => (s, .bad x)
    | (s, .wait) => (s, .wait)

/-! ## `cp.l` and `cp.g` -/

/-- Whether byte i of a `cp.l` lands on a byte of its own source range (R230). -/
def Cmd.overlapAt (c : Cmd) (i : Nat) : Bool :=
  let d := c.opd.toNat + i
  decide (c.opa.toNat ≤ d) && decide (d < c.opa.toNat + c.nominal)

/-- The fields of a `cp.g` (R247). -/
structure GCmd where
  tab : W64
  rows : Nat
  rbytes : Nat
  tstr : Nat
  count : Nat
  idx : W64
  lin : W64
  lstr : Nat
  skip : Nat

def GCmd.of (b : List Byte) : GCmd where
  tab := BitVec.ofNat 64 (leAt b 0 8)
  rows := leAt b 8 4
  rbytes := leAt b 12 4
  tstr := leAt b 16 4
  count := leAt b 20 4
  idx := BitVec.ofNat 64 (leAt b 24 8)
  lin := BitVec.ofNat 64 (leAt b 32 8)
  lstr := leAt b 40 4
  skip := leAt b 44 4

/-- The rules of a `cp.g` (R247). -/
def GCmd.ok (g : GCmd) (b : List Byte) : Bool :=
  g.rows != 0 && decide (4 ≤ g.rbytes) && decide (g.rbytes ≤ 65536) && g.rbytes % 4 == 0 && g.tstr % 4 == 0 &&
  g.count != 0 && decide (g.count ≤ 1048576) && g.idx.toNat % 4 == 0 && g.lin.toNat % 4 == 0 && g.lstr % 4 == 0 &&
  leAt b 48 16 == 0 && engPtrOk g.tab 1 && engPtrOk g.idx 4 && engPtrOk g.lin 4

/-! ## Encrypted sources leave only through `cp.gcm` (R226) -/

/-- Whether a byte of a pointer is in an E or EIR region, of the function or, in space 0x4, of the function that exports
it on this device. -/
def State.isEncrypted (s : State) (die : Nat) (c : Cmd) (p : W64) (off : Nat) : Bool :=
  match bits p.toNat 63 60 with
  | 0 => (match s.walk die c.fn (p.toNat % 2 ^ 48 + off) with | (_, .inr l) => !l.entry.host && l.entry.attr != 0 | _ => false)
  | 4 => (match s.engSeg die c p off 1 { quiet := true } with | (_, .place l _ _) => isDram l && s.rowAttr (l / 1024) != 0 | _ => false)
  | _ => false

/-- Whether a byte of a pointer is in host memory or space 0x4. -/
def State.isOutside (s : State) (die f : Nat) (p : W64) (off : Nat) : Bool :=
  bits p.toNat 63 60 == 4 ||
  (bits p.toNat 63 60 == 0 && (match s.walk die f (p.toNat % 2 ^ 48 + off) with | (_, .inr l) => l.entry.host | _ => false))

/-- One offset of every page of n bytes of a pointer. -/
def pagesOf (p : W64) (off n : Nat) : List Nat :=
  let a := p.toNat + off
  off :: (List.range (n / 65536 + 1)).filterMap (fun i =>
    let b := (a / 65536 + 1 + i) * 65536
    if b < a + n then some (b - p.toNat) else none)

/-- The byte ranges a command reads and writes, but for the rows of a `cp.g`'s table: pointer, offset, length. -/
def Cmd.ranges (c : Cmd) : List (W64 × Nat × Nat) × List (W64 × Nat × Nat) :=
  match c.op with
  | 0xC0 => ([(c.opa, 0, c.nominal)], [(c.opd, 0, c.nominal)])
  | 0xC1 =>
    let t := TCmd.of c.block
    let ds := (List.range t.total).map t.coord
    let scales (r : TRec) (co : List Nat) : List (W64 × Nat × Nat) := if r.slay == 0 then [] else [(r.scale, r.scaleOff co, if isZb r.fmt then 2 else 1)]
    ((ds.filter t.inSrc).flatMap (fun d => (t.s.base, t.s.nibOf (t.srcCoord d) / 2, 1) :: scales t.s (t.srcCoord d)),
     (ds.filter t.inDst).flatMap (fun d => (t.d.base, t.d.nibOf d / 2, 1) :: scales t.d d))
  | _ =>
    let g := GCmd.of c.block
    let lin := (List.range g.count).map (fun k => (g.lin, k * g.lstr, g.rbytes))
    if c.mode then (lin, []) else ([], lin)

/-- The table rows of the rows from k on of a `cp.g`, by their index entries (R247); the first entry that cannot be read
ends them, as it ends the command. -/
def State.tableRows (s : State) (die : Nat) (c : Cmd) (g : GCmd) : Nat → Nat → State × Eg (List (W64 × Nat × Nat))
  | 0, _ => (s, .ok [])
  | fuel + 1, k =>
    match s.engNat die c g.idx (4 * k) 4 with
    | (s, .ok v) =>
      match s.tableRows die c g fuel (k + 1) with
      | (s, .ok rs) => (s, .ok ((g.tab, (min (max (toSigned 32 v) 0) ((g.rows : Int) - 1)).toNat * g.tstr, g.rbytes) :: rs))
      | r => r
    | (s, .bad _) => (s, .ok [])
    | (s, .wait) => (s, .wait)

/-- Whether some byte read is encrypted and some byte written lies outside the module (R226). -/
def State.leaks (s : State) (die : Nat) (c : Cmd) (src dst : List (W64 × Nat × Nat)) : Bool :=
  dst.any (fun r => (pagesOf r.1 r.2.1 r.2.2).any (s.isOutside die c.fn r.1)) &&
  src.any (fun r => (pagesOf r.1 r.2.1 r.2.2).any (s.isEncrypted die c r.1))

/-- Whether R226 ends a command: an encrypted source byte and a destination byte outside the module. -/
def State.leaves (s : State) (die : Nat) (c : Cmd) : State × Eg Bool :=
  let (src, dst) := c.ranges
  if c.op != 0xC2 then (s, .ok (s.leaks die c src dst))
  else
    let g := GCmd.of c.block
    match s.tableRows die c g g.count 0 with
    | (s, .ok rows) => (s, .ok (if c.mode then s.leaks die c src rows else s.leaks die c rows dst))
    | (s, .bad x) => (s, .bad x)
    | (s, .wait) => (s, .wait)

/-! ## The beats of `cp.l` and `cp.g` -/

/-- The writes of the next beat of a `cp.l` (R239); overlapping bytes are free values (R230). -/
def State.beatL (s : State) (die : Nat) (c : Cmd) : State × Eg (Puts × Nat) :=
  let n := min 256 (c.nominal - c.landed)
  if s.leaks die c [(c.opa, c.landed, n)] [(c.opd, c.landed, n)] then (s, .bad 3) else
  match s.engRead die c c.opa c.landed n with
  | (s, .ok bs) =>
    let bs := bs.mapIdx (fun i b => if c.overlapAt (c.landed + i) then Config.freeByte (s.freeCtr + i) else b)
    match ({ s with freeCtr := s.freeCtr + n }).engAim die c c.opd c.landed bs with
    | (s, .ok ps) => (s, .ok (ps, n))
    | (s, .bad x) => (s, .bad x)
    | (s, .wait) => (s, .wait)
  | (s, .bad x) => (s, .bad x)
  | (s, .wait) => (s, .wait)

/-- The pieces of a beat of a `cp.g`: linear offset, table offset and bytes of each, one per row (R247). -/
def State.piecesG (s : State) (die : Nat) (c : Cmd) (g : GCmd) : Nat → Nat → Nat → State × Eg (List (Nat × Nat × Nat))
  | 0, _, _ => (s, .ok [])
  | fuel + 1, off, n =>
    if n = 0 then (s, .ok []) else
    let k := off / g.rbytes
    let here := min n (g.rbytes - off % g.rbytes)
    match s.engNat die c g.idx (4 * k) 4 with
    | (s, .ok v) =>
      let i := (min (max (toSigned 32 v) 0) ((g.rows : Int) - 1)).toNat
      match s.piecesG die c g fuel (off + here) (n - here) with
      | (s, .ok ps) => (s, .ok ((k * g.lstr + off % g.rbytes, i * g.tstr + off % g.rbytes, here) :: ps))
      | r => r
    | (s, .bad x) => (s, .bad x)
    | (s, .wait) => (s, .wait)

/-- Reads and aims the pieces of a beat, in ascending k; none of them leaves the module encrypted (R226). -/
def State.movePieces (s : State) (die : Nat) (c : Cmd) (src dst : W64) (sct : Bool) : List (Nat × Nat × Nat) → Puts → State × Eg Puts
  | [], ps => (s, .ok ps)
  | (lin, tab, n) :: rest, ps =>
    if s.leaks die c [(src, if sct then lin else tab, n)] [(dst, if sct then tab else lin, n)] then (s, .bad 3) else
    match s.engRead die c src (if sct then lin else tab) n with
    | (s, .ok bs) =>
      match s.engAim die c dst (if sct then tab else lin) bs with
      | (s, .ok qs) => s.movePieces die c src dst sct rest (ps ++ qs)
      | r => r
    | (s, .bad x) => (s, .bad x)
    | (s, .wait) => (s, .wait)

/-- The writes of the next beat of a `cp.g`. -/
def State.beatG (s : State) (die : Nat) (c : Cmd) : State × Eg (Puts × Nat) :=
  let g := GCmd.of c.block
  let n := min 256 (c.nominal - c.landed)
  match s.piecesG die c g 65 c.landed n with
  | (s, .ok l) =>
    match s.movePieces die c (if c.mode then g.lin else g.tab) (if c.mode then g.tab else g.lin) c.mode l [] with
    | (s, .ok ps) => (s, .ok (ps, n))
    | (s, .bad x) => (s, .bad x)
    | (s, .wait) => (s, .wait)
  | (s, .bad x) => (s, .bad x)
  | (s, .wait) => (s, .wait)

/-! ## Starting a command -/

/-- A pointer to a 64-byte tensor record (R240). -/
def recPtrOk (p : W64) : Bool := engPtrOk p 64 && decide (bits p.toNat 63 60 < 3) && p.toNat % 64 == 0

/-- The rules of a `cp.gcm` block (R248). -/
def gcmBlockOk (b : List Byte) : Bool :=
  leAt b 0 8 % 32 == 0 && leAt b 8 8 % 32 == 0 && decide (32 ≤ leAt b 16 4) && decide (leAt b 16 4 ≤ 2 ^ 24) && leAt b 16 4 % 32 == 0 &&
  leAt b 20 1 / 8 == 0 && leAt b 21 3 == 0 && leAt b 36 4 == 0 && leAt b 40 8 % 16 == 0 && leAt b 48 16 == 0 &&
  engPtrOk (BitVec.ofNat 64 (leAt b 0 8)) (leAt b 16 4) && engPtrOk (BitVec.ofNat 64 (leAt b 8 8)) (leAt b 16 4) &&
  engPtrOk (BitVec.ofNat 64 (leAt b 40 8)) 16

/-- A tensor record read, or DESC where the pointer is none to a record. -/
def State.recRead (s : State) (die : Nat) (c : Cmd) (p : W64) : State × Eg (List Byte) :=
  if recPtrOk p then s.engRead die c p 0 64 else (s, .bad 8)

/-- A `cp.t` with its block and those of its records that could be read: it describes the box in destination elements, and
0 bytes where there is no destination record (R229, notes/assumptions/22.md). -/
def Cmd.withRecs (c : Cmd) (b b1 b2 : List Byte) : Cmd :=
  let bl := b ++ (if b1.isEmpty then List.replicate 64 0 else b1) ++ b2
  let t := TCmd.of bl
  let n := if b2.isEmpty then 0 else t.nominal
  { c with block := bl, nominal := n, landed := min (256 * t.skip) n }

/-- The bytes of a read, none of them where it failed. -/
def Eg.bytes : Eg (List Byte) → List Byte
  | .ok b => b
  | _ => []

/-- Reads what a command needs at its start: the command with what it describes as far as that can be read, its block,
nominal bytes and skipped beats, then whether its rules hold, or the status of what could not be read. -/
def State.cmdRead (s : State) (die : Nat) (c : Cmd) : State × Cmd × Eg Bool :=
  if c.op == 0xC0 then (s, c, .ok true)
  else
    match s.engRead die c c.opd 0 64 with
    | (s, .bad x) => (s, c, .bad x)
    | (s, .wait) => (s, c, .wait)
    | (s, .ok b) =>
      match c.op with
      | 0xC1 =>
        let (s, r1) := s.recRead die c (BitVec.ofNat 64 (leAt b 0 8))
        let (s, r2) := s.recRead die c (BitVec.ofNat 64 (leAt b 8 8))
        let c := c.withRecs b r1.bytes r2.bytes
        match r1, r2 with
        | .wait, _ => (s, c, .wait)
        | _, .wait => (s, c, .wait)
        | .bad x, _ => (s, c, .bad x)
        | _, .bad x => (s, c, .bad x)
        | .ok _, .ok _ => (s, c, .ok ((TCmd.of c.block).ok c.block c.mode))
      | 0xC2 =>
        let g := GCmd.of b
        let n := g.count * g.rbytes
        (s, { c with block := b, nominal := n, landed := min (256 * g.skip) n }, .ok (g.ok b))
      | _ => (s, { c with block := b, nominal := leAt b 16 4 }, .ok (gcmBlockOk b))

/-- A command that ends before it could start, with what it describes, 0 bytes where that cannot be read
(notes/assumptions/22.md); none while the read has to wait. -/
def State.described (s : State) (die : Nat) (c : Cmd) : State × Option Cmd :=
  if c.started then (s, some c)
  else
    match s.cmdRead die c with
    | (s, _, .wait) => (s, none)
    | (s, c, _) => (s, some c)

def State.putCmd (s : State) (die : Nat) (c : Cmd) : State :=
  s.setDie die (fun d => { d with queue := d.queue.map (fun q => if q.id == c.id then c else q) })

/-- Whether an earlier `cp.gcm` of this die on the same stream has not passed its counter check; one whose block is not
read yet may name any stream (R402). -/
def State.gcmWaits (s : State) (die : Nat) (c : Cmd) : Bool :=
  (s.die die).queue.any (fun q => q.op == 0xC3 && q.fn == c.fn && decide (q.id < c.id) && !q.checked &&
    (!q.started || leAt q.block 20 1 % 8 == leAt c.block 20 1 % 8))

/-- Ends a command with a status once what it describes is known; none while that has to wait. -/
def State.cmdEndDescribed (s : State) (die : Nat) (c : Cmd) (st : Nat) : State × Bool :=
  match s.described die c with
  | (s, some c) => (s.cmdEnd die c st, true)
  | (s, none) => (s, false)

/-- Starts a command an engine holds: reads its block and records, and ends it where a rule fails (R226, R240,
R244, R246, R247), or where it has been cancelled meanwhile (R252). A wait leaves it to be started again. -/
def State.cmdStart (s : State) (die : Nat) (c : Cmd) : State :=
  if c.cancel then (s.cmdEndDescribed die c 1).1
  else
    match s.cmdRead die c with
    | (s, _, .wait) => s
    | (s, c, .bad x) => s.cmdEnd die c x
    | (s, c, .ok ok) =>
      if !ok then s.cmdEnd die c 8
      else if c.op == 0xC3 then (if s.gcmWaits die c then s else s.putCmd die { c with started := true })
      else
        match s.leaves die c with
        | (s, .wait) => s
        | (s, .bad x) => s.cmdEnd die c x
        | (s, .ok leaves) =>
          let s := s.putCmd die { c with started := true }
          if leaves then s.cmdEnd die c 3 else if c.landed == c.nominal then s.cmdEnd die c 0 else s

/-! ## Leases (R233 to R236) -/

/-- Whether an engine runs an opcode: 0 to 15 copy, 16 to 19 gather (R225). -/
def engRuns (eng op : Nat) : Bool := if eng < 16 then op != 0xC2 else op == 0xC2

/-- The commands of a die that wait for an engine of this kind. -/
def Die.queued (d : Die) (eng : Nat) : List Cmd :=
  d.queue.filter (fun c => engRuns eng c.op && !d.engines.any (fun e => e.2.cmd == some c.id))

/-- The engine cycles a function's leases have consumed on a die, those running included. -/
def State.usedBy (s : State) (die f : Nat) : Nat :=
  let d := s.die die
  tgetD d.used f 0 + ((d.engines.filter (fun e => e.2.fn == f)).map (fun e => s.clock - e.2.paid)).sum

/-- Whether a command of a context that has stopped for its save neither starts nor goes on (R238). -/
def State.cmdStops (s : State) (c : Cmd) : Bool :=
  c.node.isNone && (s.cx c.cx).any s.allStopped && !(c.op == 0xC3 && c.started)

/-- Whether a command waits before it starts: its context has stopped, or an earlier access of its thread still has to
return what orders its copies (R216, R238). -/
def State.cmdHeld (s : State) (c : Cmd) : Bool :=
  s.cmdStops c || (c.node.isNone && !c.started && s.acqPending c.strand c.lane .copy c.id)

/-- Whether a function's interface lets its work run (R391). -/
def State.fnLive (s : State) (f : Nat) : Bool := (s.func f).ifState == 0 || (s.func f).ifState == 2

/-- Whether a reset that ends the work of a function runs (R413). -/
def State.resetting (s : State) (f : Nat) : Bool :=
  match s.mg.rstRun with
  | some (l, _, t) => (l == 4 || l == 5) && t == f
  | none => false

/-- Whether a function's work on its engines goes on: it runs and is neither being quiesced nor reset (R391, R393, R413). -/
def State.fnRuns (s : State) (f : Nat) : Bool := s.fnLive f && (s.func f).quiesce.isNone && !s.resetting f && !s.mg.tripped && s.mg.boot == 1

/-- The function an engine is granted to (R234). -/
def State.engPick (s : State) (die eng : Nat) : Option Nat :=
  let fs := (((((s.die die).queued eng).filter (fun c => !s.cmdHeld c)).map Cmd.fn).filter s.fnRuns).eraseDups
  let w (f : Nat) : Nat := (s.slice f).leasew
  let heavy := fs.filter (fun f => w f != 0)
  let best (l : List Nat) (before : Nat → Nat → Bool) : Option Nat :=
    match l with
    | [] => none
    | f :: fs => some (fs.foldl (fun a b => if before b a then b else a) f)
  if heavy.isEmpty then best fs (fun a b => decide (s.usedBy die a < s.usedBy die b) || (s.usedBy die a == s.usedBy die b && decide (a < b)))
  else best heavy (fun a b =>
    let x := s.usedBy die a * w b; let y := s.usedBy die b * w a
    decide (x < y) || (x == y && decide (a < b)))

/-- Ends an engine's lease (R235). -/
def State.leaseEnd (s : State) (die eng : Nat) : State :=
  s.setDie die (fun d =>
    match tget d.engines eng with
    | some l => { d with engines := tdel d.engines eng, used := tbump d.used l.fn (s.clock - l.paid) }
    | none => d)

/-- Gives an engine under lease its function's next command, and starts it; the lease ends when none is queued, or when
its time has passed (R235). -/
def State.engNext (s : State) (die eng : Nat) : Nat → State
  | 0 => s
  | fuel + 1 =>
    match tget (s.die die).engines eng with
    | none => s
    | some l =>
      if l.cmd.isSome then s
      else
        match (if l.since + l.len ≤ s.clock then none else ((s.die die).queued eng).find? (fun c => c.fn == l.fn && !s.cmdHeld c)) with
        | none => s.leaseEnd die eng
        | some c =>
          let s := s.setDie die (fun d => { d with engines := tset d.engines eng { l with cmd := some c.id, beat := false } })
          (if c.started then s else s.cmdStart die c).engNext die eng fuel

/-- ENGINE_LEASE_GRANT (R234). -/
def execEngineLeaseGrant (die eng : Nat) (s : State) : Res :=
  .next (if 20 ≤ eng || (tget (s.die die).engines eng).isSome then s else
    match s.engPick die eng with
    | none => s
    | some f => (s.setDie die (fun d => { d with engines := tset d.engines eng ⟨f, none, s.clock, s.mg.leaseCyc, s.clock, false⟩ })).engNext die eng
        ((s.die die).queue.length + 1))

/-- LEASE_EXPIRY (R235, R236), once the lease's cycles have passed: the command in progress goes back to the head of its function's queue at its next beat
boundary, one beat at least after it began; a `cp.gcm` in progress keeps its engine. -/
def execLeaseExpiry (die eng : Nat) (s : State) : Res :=
  .next (match tget (s.die die).engines eng with
    | none => s
    | some l =>
      match l.cmd.bind (fun i => (s.die die).queue.find? (fun c => c.id == i)) with
      | none => s.leaseEnd die eng
      | some c =>
        if (c.op == 0xC3 && c.started) || !l.beat || s.clock < l.since + l.len then s
        else (s.setDie die (fun d => { d with queue := c :: d.queue.filter (fun q => q.id != c.id) })).leaseEnd die eng)

/-- How many times 2^20 cycles of a die have passed since its last halving of USED (R234). -/
def State.halvingDue (s : State) (die : Nat) : Bool := decide ((s.die die).halvings < s.cycle die / 2 ^ 20)

/-- USED_HALVING (R234): every 2^20 cycles, what leases in progress have consumed included. -/
def execUsedHalving (die : Nat) (s : State) : Res :=
  .next (if !s.halvingDue die then s else s.setDie die (fun d =>
    let used := d.engines.foldl (fun u e => tbump u e.2.fn (s.clock - e.2.paid)) d.used
    { d with used := used.map (fun u => (u.1, u.2 / 2)), engines := tmap d.engines (fun l => { l with paid := s.clock }), halvings := d.halvings + 1 }))

/-! ## Issue (R227, R228, R231) -/

/-- What one lane of a copy instruction does: nothing, a trap, or a command. -/
inductive Issued where
  | nothing
  | trap (code : Nat)
  | cmd (c : Cmd)

/-- The check and the command of one lane. -/
def issueLane (s : State) (x : Iss) (cx : Cx) (k : Nat) : Issued :=
  let op := x.h.row.op
  let fl := x.h.f.x.toNat
  let nb := bit fl 0
  let d := x.st.pair k x.h.f.d.toNat
  let lin := op == 0xC0
  let a := if lin then x.st.pair k x.h.f.a.toNat else 0
  let word := if lin then x.st.src k x.h.f.b else x.st.src k x.h.f.a
  let len := word.toNat % 2 ^ 23
  let bar := if lin then word.toNat / 2 ^ 23 else word.toNat % 2 ^ 9
  let c : Cmd := {
    id := s.nextId + k, op := op, cx := x.st.cx, fn := s.fnOf x.st, strand := x.i, lane := k, nb := nb, qs := bit fl 3
    mode := bit fl 1, bar := bar, opd := d, opa := a, word := word, nominal := if lin then len else 0, landed := 0
    started := false, checked := false, cancel := false, block := [], ord := (x.st.lane k).ord, node := none, wids := [] }
  if (if lin then len == 0 else d == 0) then .nothing
  else if (if lin then !(engPtrOk a len && engPtrOk d len) else !engPtrOk d 64) then .trap 0x07
  else if !lin && d.toNat % 64 != 0 then .trap 0x06
  else if !nb && cx.hdr.barriers ≤ bar then .trap 0x20
  else .cmd c

/-- The commands in a die's queue: those that no engine runs (R231). -/
def Die.waiting (d : Die) : List Cmd := d.queue.filter (fun c => !d.engines.any (fun e => e.2.cmd == some c.id))

/-- `cp.l`, `cp.t`, `cp.g` and `cp.gcm` (R227 to R231). A group that would pass a limit stalls; those that have stalled
for it go on in the order in which they did. The record of ALIGN names the block (R175, R319). -/
def copyBody (s : State) (x : Iss) : Act :=
  match s.cx x.st.cx with
  | none => .done { s := s }
  | some cx =>
    let die := dieOfUnit (s.homeUnit x.st)
    let outs := (lanesOf x.m).map (fun k => (k, issueLane s x cx k))
    let cmds := outs.filterMap (fun o => match o.2 with | .cmd c => some c | _ => none)
    let behind (k : Stall) (near : Strand → Bool) : Bool := (x.st.place k).isSome && s.queuesBehind x.i k near
    if !cmds.isEmpty && (decide (256 < (s.cmdsOf x.st.cx).length + cmds.length) || behind .cmds (fun t => t.cx == x.st.cx)) then .stall .cmds
    else if !cmds.isEmpty && (decide (1024 < (s.die die).waiting.length + cmds.length) ||
        behind .engine (fun t => dieOfUnit (s.homeUnit t) == die)) then .stall .engine
    else
      let traps (code : Nat) : Word := maskOf (fun k => outs.any (fun o => o.1 == k && (match o.2 with | .trap c => c == code | _ => false)))
      let s := [0x07, 0x06, 0x20].foldl (fun s code => if traps code = 0 then s else
        s.trapLanes x.i (traps code) code x.pc 4 0 (fun k => if code == 0x06 then x.st.pair k x.h.f.d.toNat else 0)) s
      let s := s.setDie die (fun d => { d with queue := d.queue ++ cmds })
      let s := cmds.foldl (fun s c => if c.nb then s else
        s.updCx c.cx (fun y => { y with bars := y.bars.modify c.bar (fun b => { b with out := b.out + 1 }) })) s
      .done { s := { s with nextId := s.nextId + 32 } }

def execCpL (f : Rrr) (s : State) : Res := .next (s.issue (hdOf 0xC0 (rrrWord 0xC0 f)) copyBody)
def execCpT (f : Rrr) (s : State) : Res := .next (s.issue (hdOf 0xC1 (rrrWord 0xC1 f)) copyBody)
def execCpG (f : Rrr) (s : State) : Res := .next (s.issue (hdOf 0xC2 (rrrWord 0xC2 f)) copyBody)
def execCpGcm (f : Rrr) (s : State) : Res := .next (s.issue (hdOf 0xC3 (rrrWord 0xC3 f)) copyBody)

/-! ## cp.stat and cp.cancel (R251, R252) -/

/-- `cp.stat` (R251). -/
def cpStatBody (s : State) (x : Iss) : Act :=
  match s.cx x.st.cx with
  | none => .done { s := s }
  | some c =>
    let n := (x.st.src (lowest x.m) x.h.f.a).toNat % 1024
    if 512 < n || (n != 512 && c.hdr.barriers ≤ n) then barMisuse s x
    else
      let b := c.bars.getD n {}
      let (out, stk, code) := if n = 512 then (((s.cmdsOf x.st.cx).filter (fun e => e.2.nb)).length, c.nbStk, c.nbStkcode)
        else (b.out, b.stk, b.stkcode)
      let v : Word := BitVec.ofNat 32 (min out 65535 * 65536 + code * 16 + (if stk then 1 else 0))
      let st := x.st.write32 x.m x.h.f.d.toNat (fun _ => v) (some (.u v))
      let s := (s.putStrand x.i st).updCx x.st.cx (fun c =>
        if n = 512 then { c with nbStk := false, nbStkcode := 0 }
        else { c with bars := c.bars.modify n (fun b => { b with stk := false, stkcode := 0 }) })
      .done { s := s, dst := .reg x.h.f.d.toNat }

def execCpStat (f : Rrr) (s : State) : Res := .next (s.issue (hdOf 0xC4 (rrrWord 0xC4 f)) cpStatBody)

/-- Cancels the outstanding commands of a context for an index: those no engine holds end at once, if what they describe
can be read at once, the others at their next beat boundary or when an engine takes them. -/
def State.cancel (s : State) (cx n : Nat) : State :=
  (s.cmdsOf cx).foldl (fun s e =>
    let c := e.2
    if (if n = 512 then c.nb else !c.nb && c.bar == n) then
      if (s.die e.1).engines.any (fun g => g.2.cmd == some c.id) then s.putCmd e.1 { c with cancel := true }
      else
        match s.described e.1 c with
        | (s, some c) => s.cmdEnd e.1 c 1
        | (s, none) => s.putCmd e.1 { c with cancel := true }
    else s) s

/-- `cp.cancel` (R252). -/
def cpCancelBody (s : State) (x : Iss) : Act :=
  match s.cx x.st.cx with
  | none => .done { s := s }
  | some c =>
    let n := (x.st.src (lowest x.m) x.h.f.d).toNat % 1024
    if 512 < n || (n != 512 && c.hdr.barriers ≤ n) then barMisuse s x
    else .done { s := s.cancel x.st.cx n }

def execCpCancel (f : Rrr) (s : State) : Res := .next (s.issue (hdOf 0xC5 (rrrWord 0xC5 f)) cpCancelBody)

end Sys2Proof.Machine
end

