-- ==== Sys2Proof/Machine/Gcm.lean ====
section
/-! DEFINITION. `cp.gcm` (R248 to R250, R402), the landing of a beat (R229, R232), and stopping the commands
of a context for a save (R238). -/
namespace Sys2Proof.Machine

/-! ## `cp.gcm` -/

/-- The fields of a `cp.gcm` block (R248). -/
structure GcmCmd where
  src : W64
  dst : W64
  len : Nat
  stream : Nat
  ivid : Nat
  ctr : Nat
  tag : W64

def GcmCmd.of (b : List Byte) : GcmCmd where
  src := BitVec.ofNat 64 (leAt b 0 8)
  dst := BitVec.ofNat 64 (leAt b 8 8)
  len := leAt b 16 4
  stream := leAt b 20 1 % 8
  ivid := leAt b 24 4
  ctr := leAt b 28 8
  tag := BitVec.ofNat 64 (leAt b 40 8)

/-- The stream a command names. -/
def State.streamOf (s : State) (c : Cmd) : Stream := (s.func c.fn).streams.getD (GcmCmd.of c.block).stream ⟨false, 0, 0, 0⟩

/-- The IV (R248). -/
def GcmCmd.iv (g : GcmCmd) : BitVec 96 := BitVec.ofNat 96 (g.ivid * 2 ^ 64 + g.ctr)

/-- The tag of the ciphertext a command has taken, as bytes. -/
def Cmd.tagOf (c : Cmd) (key : BitVec 256) : List Byte := gcmTag key (GcmCmd.of c.block).iv [] (c.block.drop 64)

/-- How the pages of a range are translated, and what each gives (R249). -/
def State.gcmPages (s : State) (die : Nat) (c : Cmd) (p : W64) (n : Nat) (need : Need) : State × List Rs :=
  (pagesOf p 0 n).foldl (fun a o => let (s, r) := a.1.engSeg die c p o 1 need; (s, a.2 ++ [r])) (s, [])

/-- Whether every page of a range is device DRAM of the function with an attribute of a list (R249). -/
def State.gcmAttrs (s : State) (die : Nat) (c : Cmd) (p : W64) (n : Nat) (ok : Nat → Bool) : Bool :=
  bits p.toNat 63 60 == 0 && (pagesOf p 0 n).all (fun o =>
    match s.walk die c.fn (p.toNat % 2 ^ 48 + o) with
    | (_, .inr l) => !l.entry.host && s.chanSlice (chanOf l.entry.pa) == c.fn && ok l.entry.attr
    | _ => false)

/-- The checks of R249 before the counter check: none while a translation waits, or the status. A page whose walk meets a
poisoned or LOST table sector ends it POISON (R232, notes/assumptions/60.md). -/
def State.gcmCheck (s : State) (die : Nat) (c : Cmd) : State × Option (Option Nat) :=
  let g := GcmCmd.of c.block
  if !(s.streamOf c).valid then (s, some (some 8)) else
  let (s, p1) := s.gcmPages die c g.src g.len { r := true }
  let (s, p2) := s.gcmPages die c g.dst g.len { w := true }
  let (s, p3) := s.gcmPages die c g.tag 16 (if c.mode then { w := true } else { r := true })
  let ps := p1 ++ p2 ++ p3
  let st (x : Stop) : Nat := engStatus c.op x.code
  let fails (v : Nat) : Bool := ps.any (fun p => match p with | .stop x | .refused x => st x == v | _ => false)
  (s,
  if ps.any (fun p => match p with | .wait => true | .place l _ _ => s.homeHeld l | _ => false) then none
  else if fails 2 then some (some 2)
  else if fails 4 then some (some 4)
  else if fails 3 || ps.any (fun p => match p with | .place l _ f => isDram l && !s.chanServes f (chanOf l) | _ => false) then some (some 3)
  else if ps.any (fun p => match p with | .stop _ | .refused _ => true | _ => false) then some (some 8)
  else if !(if c.mode then s.gcmAttrs die c g.src g.len (fun a => a == 1 || a == 2) else s.gcmAttrs die c g.dst g.len (· == 2)) then
    some (some 8)
  else some none)

/-- The DRAM sectors of n bytes of a pointer. -/
def State.gcmSectors (s : State) (die : Nat) (c : Cmd) (p : W64) (n : Nat) : List Nat :=
  match s.engSegs die c p 0 n { w := true, quiet := true } with
  | (_, .ok ls) => (ls.filter (fun g => isDram g.loc)).flatMap (fun g => sectorsOf g.loc g.n)
  | _ => []

/-- The command an engine holds. -/
def State.cmdAt (s : State) (die eng : Nat) : Option Cmd :=
  (tget (s.die die).engines eng).bind (fun l => l.cmd.bind (fun i => (s.die die).queue.find? (fun c => c.id == i)))

/-- What an engine does once its command has ended: the function's next command, or the end of the lease. -/
def State.engGoOn (s : State) (die eng : Nat) : State := s.engNext die eng ((s.die die).queue.length + 1)

/-- GCM_COUNTER_CHECK (R249): the checks, the counter, and a decrypt's poisoning of its destination (R250). -/
def execGcmCounterCheck (die eng : Nat) (s : State) : Res :=
  .next (match s.cmdAt die eng with
    | none => s
    | some c =>
      if c.op != 0xC3 || !c.started || c.checked || c.cancel || !s.fnLive c.fn || s.gcmWaits die c then s
      else
        match s.gcmCheck die c with
        | (s, none) => s
        | (s, some (some x)) => (s.cmdEnd die c x).engGoOn die eng
        | (s, some none) =>
          let g := GcmCmd.of c.block
          let t := s.streamOf c
          if g.ivid != t.sid.toNat || g.ctr ≤ t.last.toNat then (s.cmdEnd die c 6).engGoOn die eng
          else
            let s := s.setFunc c.fn (fun f => { f with streams := f.streams.modify g.stream (fun t => { t with last := BitVec.ofNat 64 g.ctr }) })
            let marks := if c.mode then [] else s.gcmSectors die c g.dst g.len
            let s := marks.foldl (fun s p => if s.poison.contains p then s else { s with poison := p :: s.poison }) s
            s.putCmd die { c with checked := true, marks := marks })

/-- Decrypts or encrypts and lands the next beat of a checked `cp.gcm` (R250). -/
def State.beatGcm (s : State) (die : Nat) (c : Cmd) : State × Eg (Puts × Nat × List Byte) :=
  let g := GcmCmd.of c.block
  let n := min 256 (c.nominal - c.landed)
  match s.engRead die c g.src c.landed n with
  | (s, .ok bs) =>
    let out := gcmXor (s.streamOf c).key g.iv c.landed bs
    match s.engAim die c g.dst c.landed out with
    | (s, .ok ps) => (s, .ok (ps, n, if c.mode then out else bs))
    | (s, .bad x) => (s, .bad x)
    | (s, .wait) => (s, .wait)
  | (s, .bad x) => (s, .bad x)
  | (s, .wait) => (s, .wait)

/-- GCM_TAG_VERIFY (R250): an encrypt writes its tag; a decrypt commits by clearing the poison of its whole
destination, which makes its granules dirty (R408), or ends GCM_TAG. -/
def execGcmTagVerify (die eng : Nat) (s : State) : Res :=
  .next (match s.cmdAt die eng with
    | none => s
    | some c =>
      if c.op != 0xC3 || !c.checked || c.cancel || c.landed < c.nominal || !s.fnLive c.fn then s
      else
        let g := GcmCmd.of c.block
        let tag := c.tagOf (s.streamOf c).key
        if c.mode then
          match s.engAim die c g.tag 0 tag with
          | (s, .ok ps) => ((s.engPuts die c false ps).cmdEnd die c 0).engGoOn die eng
          | (s, .bad x) => (s.cmdEnd die c x).engGoOn die eng
          | (s, .wait) => s
        else
          match s.engRead die c g.tag 0 16 with
          | (s, .ok bs) =>
            if bs == tag then
              ((c.marks.foldl (fun (s : State) p => s.touch (32 * p) 32) { s with poison := s.poison.filter (fun p => !c.marks.contains p) }).cmdEnd die c 0).engGoOn die eng
            else (s.cmdEnd die c 5).engGoOn die eng
          | (s, .bad x) => (s.cmdEnd die c x).engGoOn die eng
          | (s, .wait) => s)

/-! ## The landing of a beat -/

/-- Notes that the command of an engine has landed a beat in its lease (R236). -/
def State.beaten (s : State) (die eng : Nat) : State :=
  s.setDie die (fun d => match tget d.engines eng with
    | some l => { d with engines := tset d.engines eng { l with beat := true } }
    | none => d)

/-- Counts a landed beat: the command's prefix, its barrier, and its end after the last one. -/
def State.landed (s : State) (die eng : Nat) (c : Cmd) (n : Nat) : State :=
  let s := s.beaten die eng
  match (s.die die).queue.find? (fun q => q.id == c.id) with
  | none => s
  | some q =>
    let q := { q with landed := q.landed + n }
    let s := s.putCmd die q
    let s := if q.nb || q.node.isSome then s else s.barLand q.cx q.bar n (q.wids.map (fun i => (i, Path.copy)))
    if q.landed == q.nominal then (s.cmdEnd die q 0).engGoOn die eng else s

/-- BEAT_LAND (R229, R232): the next beat of the command an engine holds. A command that waits to be started is
started, a cancelled one ends. -/
def execBeatLand (die eng : Nat) (s : State) : Res :=
  .next (match s.cmdAt die eng with
    | none => s.engGoOn die eng
    | some c =>
      if !(s.fnRuns c.fn || (c.op == 0xC3 && s.fnLive c.fn)) || s.cmdStops c then s
      else if c.cancel then
        match s.cmdEndDescribed die c 1 with
        | (s, true) => s.engGoOn die eng
        | (s, false) => s
      else if !c.started then (s.cmdStart die c).engGoOn die eng
      else if c.op == 0xC3 then
        if !c.checked || c.landed == c.nominal then s
        else
          match s.beatGcm die c with
          | (s, .ok (ps, n, ct)) =>
            let s := (s.engPuts die c (!c.mode) ps).beaten die eng
            s.setDie die (fun d => { d with queue := d.queue.map (fun q =>
              if q.id == c.id then { q with landed := q.landed + n, block := q.block ++ ct } else q) })
          | (s, .bad x) => (s.cmdEnd die c x).engGoOn die eng
          | (s, .wait) => s
      else
        match (match c.op with | 0xC0 => s.beatL die c | 0xC1 => s.beatT die c | _ => s.beatG die c) with
        | (s, .ok (ps, n)) => (s.engPuts die c false ps).landed die eng c n
        | (s, .bad x) => (s.cmdEnd die c x).engGoOn die eng
        | (s, .wait) => s)

end Sys2Proof.Machine
end

