-- ==== Sys2Proof/Machine/Matrix.lean ====
section
/-! DEFINITION. The matrix engine (R279 to R300): its holder, reservations, operands, the sequencer, `mma`,
`mconv`, `mzero`, `mld`, `mst`, `mwait` and `mstat`. -/
namespace Sys2Proof.Machine

/-! ## The holder and traps (R280, R281, R284) -/

/-- OB_RES with a cause in every lane of the group (R284). -/
def obTrap (s : State) (x : Iss) (cause : Nat) : Act := .done { s := s.trapLanes x.i x.m 0x21 x.pc 4 cause }

/-- Bytes that hold undefined values from now on (R15). -/
def State.undefine (s : State) (a n : Nat) : State :=
  { s.homeWrite a ((List.range n).map (fun i => Config.freeByte (s.freeCtr + i))) with freeCtr := s.freeCtr + n }

/-- The block length of a format: one 64x64 canonical block (R282). -/
def blockLen (f : Nat) : Nat := 2048 * elemNib f

/-- Whether a format may hold an operand (R282). -/
def isOperand (f : Nat) : Bool := f == 0x11 || f == 0x12 || f == 0x13 || f == 0x14 || isZb f

/-- The depth of a step for a format (R288). -/
def depthOf (f : Nat) : Nat := if elemNib f = 4 then 2 else if elemNib f = 2 then 4 else 8

/-- Whether the ranges [a, a+n) and [b, b+k) meet. -/
def meets (a n b k : Nat) : Bool := decide (a < b + k) && decide (b < a + n)

/-- The length of a ZB range's exponents (R282). -/
def Resv.scaleLen (r : Resv) : Nat := if isZb r.fmt then 256 * r.len / blockLen r.fmt else 0

/-- The checks of an `obres` against the records held and the allotment's size: the first cause, if any (R282). -/
def resvCause (rs : Tab Resv) (sram id attr off len : Nat) : Option Nat :=
  let r : Resv := ⟨attr % 256, bits attr 31 16, off, len⟩
  let bl := blockLen r.fmt
  if (tget rs id).isSome then some 1
  else if !isOperand r.fmt || bits attr 15 8 != 0 || r.soff % 2 != 0 || (r.soff != 0 && !isZb r.fmt) then some 5
  else if off % 256 != 0 || len % 256 != 0 || len == 0 || decide (sram < off + len) || (isZb r.fmt && len % bl != 0) ||
      rs.any (fun e => meets off len e.2.off e.2.len) then some 2
  else if decide (2097152 < len + (rs.map (fun e => e.2.len)).sum) then some 3
  else if isZb r.fmt && (decide (65536 < r.soff + r.scaleLen) ||
      rs.any (fun e => isZb e.2.fmt && meets r.soff r.scaleLen e.2.soff e.2.scaleLen)) then some 4
  else none

/-- `obres` (R280, R282): a new holder finds accumulators and scale memory undefined. -/
def obresBody (s : State) (x : Iss) : Act :=
  match s.cx x.st.cx with
  | none => .done { s := s }
  | some c =>
    let core := s.core c.core
    let k := lowest x.m
    let near (t : Strand) : Bool := s.homeUnit t == c.core
    let free := core.holder == none
    if core.holder != some x.st.cx && (!free || s.queuesBehind x.i .holder near) then .stall .holder
    else
      let attr := (x.st.reg32 k x.h.f.d.toNat).toNat
      let off := (x.st.src k x.h.f.a).toNat
      let len := (x.st.src k x.h.f.b).toNat
      match resvCause core.resv c.hdr.sram x.h.f.x.toNat attr off len with
      | some cause => obTrap s x cause
      | none =>
        let s := if free then (s.undefine (accLoc c.core 0 0 0) 262144).undefine (scaleLoc c.core 0) 65536 else s
        .done { s := s.setCore c.core (fun y => { y with
          holder := some x.st.cx, resv := tset y.resv x.h.f.x.toNat ⟨attr % 256, bits attr 31 16, off, len⟩ }) }

/-- Ends the holding of a core's engine (R280). -/
def State.endHolding (s : State) (core : Nat) : State :=
  (s.setCore core (fun y => { y with holder := none, resv := [] })).unstallAll .holder (fun t => s.homeUnit t == core)

/-! ## Operands (R285 to R288) -/

/-- The fields of a descriptor (R285). -/
def descTpitch (d : Nat) : Nat := bits d 55 36
def descRpitch (d : Nat) : Nat := bits d 35 16
def descKb (d : Nat) : Nat := bits d 15 8
def descM (d : Nat) : Bool := bit d 4
def descRot (d : Nat) : Nat := d % 8

/-- The byte offset of block (rb, kb) of an operand. -/
def descBlk (base d rb kb : Nat) : Nat := base + rb * descRpitch d + kb * descTpitch d

/-- The offset in the holder's allotment that an operand pointer names (R285), or none. -/
def operandOff (c : Cx) (p : W64) : Option Nat :=
  let v := p.toNat
  match bits v 63 60 with
  | 1 =>
    let o := v % 2 ^ 22
    if spaceZeros 1 v && 16 * bits v 59 54 + bits v 53 50 == c.core && decide (c.sramBase ≤ o) && decide (o < c.sramBase + c.hdr.sram) then
      some (o - c.sramBase)
    else none
  | 2 =>
    let o := v % 2 ^ 22
    if spaceZeros 2 v && bit v 41 && bits v 59 42 == 0 && decide (o < c.hdr.sram) then some o else none
  | _ => none

/-- The valid range that holds a whole block of its own format at an offset. -/
def rangeOf (rs : Tab Resv) (off : Nat) : Option Resv :=
  (rs.find? (fun e => decide (e.2.off ≤ off) && decide (off + blockLen e.2.fmt ≤ e.2.off + e.2.len))).map (·.2)

/-- Checks an SRAM operand: its offset and its range, or the cause (R285). -/
def operandCheck (c : Cx) (rs : Tab Resv) (p desc : W64) : Nat ⊕ (Nat × Resv) :=
  let d := desc.toNat
  match operandOff c p with
  | none => .inl 7
  | some base =>
    if bits d 63 56 != 0 || bits d 7 5 != 0 || bit d 3 || descKb d == 0 || base % 256 != 0 || descTpitch d % 256 != 0 ||
        (descM d && descRpitch d % 256 != 0) then .inl 6
    else
      match rangeOf rs base with
      | none => .inl 7
      | some r =>
        let bl := blockLen r.fmt
        if isZb r.fmt && ((base - r.off) % bl != 0 || descTpitch d % bl != 0 || (descM d && descRpitch d % bl != 0)) then .inl 6
        else if (List.range (if descM d then 2 else 1)).all (fun rb => (List.range (descKb d)).all (fun kb =>
            let o := descBlk base d rb kb
            decide (r.off ≤ o) && decide (o + bl ≤ r.off + r.len))) then .inr (base, r)
        else .inl 7

/-- A checked operand: an SRAM block at an offset with its descriptor, or a captured register tile. -/
structure Operand where
  tile : List Word := []
  base : Nat := 0
  desc : Nat := 0
  fmt : Nat
  m128 : Bool

/-- The tile format of an `mma` (R294). -/
def tileFmt (x : Nat) : Nat := 0x11 + x / 4

/-- Reads one operand of an `mma` (R285, R287, R294). -/
def readOperand (x : Iss) (c : Cx) (rs : Tab Resv) (f : BitVec 6) (reg : Bool) : Nat ⊕ Operand :=
  let k := lowest x.m
  if reg then
    if x.m != 0xFFFFFFFF then .inl 8
    else .inr { tile := (List.range 256).map (fun n => x.st.reg32 (n / 8) (f.toNat + n % 8)), fmt := tileFmt x.h.f.x.toNat, m128 := false }
  else
    let p := x.st.pair k f.toNat
    let d := x.st.pair k (f.toNat + if x.st.ctx.wide then 1 else 2)
    match operandCheck c rs p d with
    | .inl e => .inl e
    | .inr (base, r) => .inr { base := base, desc := d.toNat, fmt := r.fmt, m128 := descM d.toNat }

/-- The checks of R288 and R294 on a pair of operands: the cause, if any. -/
def pairCause (a b : Operand) (d : Nat) : Option Nat :=
  let reg (o : Operand) : Bool := !o.tile.isEmpty
  if depthOf a.fmt != depthOf b.fmt then some 5
  else if !reg a && !reg b && descKb a.desc != descKb b.desc then some 6
  else if (reg a && !reg b && descKb b.desc != 1) || (reg b && !reg a && descKb a.desc != 1) then some 6
  else if (bit d 2 && a.m128) || (bit d 3 && b.m128) then some 6
  else none

/-! ## Issue (R289, R293) -/

/-- The empty command of a group. -/
def newMCmd (s : State) (x : Iss) : MCmd where
  id := s.nextId
  strand := x.i
  lane := lowest x.m
  op := x.h.row.op
  d := x.h.f.d.toNat
  x := x.h.f.x.toNat
  cx := x.st.cx
  aBase := 0
  aDesc := 0
  bBase := 0
  bDesc := 0
  aTile := []
  bTile := []
  shape := []
  aFmt := 0
  bFmt := 0
  step := 0
  status := none
  ord := (x.st.lane (lowest x.m)).ord
  wids := []

/-- Puts a command in the engine's queue, or stalls its group while the queue is full. -/
def State.mqueuePut (s : State) (x : Iss) (core : Nat) (m : MCmd) : Act :=
  if 8 ≤ (s.core core).mqueue.length || s.queuesBehind x.i .matrix (fun t => s.homeUnit t == core) then .stall .matrix
  else .done { s := { s.setCore core (fun y => { y with mqueue := y.mqueue ++ [m] }) with nextId := s.nextId + 1 } }

/-- Runs the body of a command of the holder; another context's traps NOHOLD (R281). -/
def asHolder (s : State) (x : Iss) (body : Cx → Core → Act) : Act :=
  match s.cx x.st.cx with
  | none => .done { s := s }
  | some c => if (s.core c.core).holder == some x.st.cx then body c (s.core c.core) else obTrap s x 0

/-- `mma` (R294). -/
def mmaBody (s : State) (x : Iss) : Act :=
  let ar := bit x.h.f.x.toNat 0
  let br := bit x.h.f.x.toNat 1
  if x.st.ctx.wide && (ar || br) then .done { s := s.trapLanes x.i x.m 0x03 x.pc 4 0 }
  else asHolder s x fun c core =>
    match readOperand x c core.resv x.h.f.a ar with
    | .inl e => obTrap s x e
    | .inr a =>
      match readOperand x c core.resv x.h.f.b br with
      | .inl e => obTrap s x e
      | .inr b =>
        match pairCause a b x.h.f.d.toNat with
        | some e => obTrap s x e
        | none => s.mqueuePut x c.core { newMCmd s x with
            aBase := BitVec.ofNat 64 a.base, aDesc := BitVec.ofNat 64 a.desc, aTile := a.tile, aFmt := a.fmt
            bBase := BitVec.ofNat 64 b.base, bDesc := BitVec.ofNat 64 b.desc, bTile := b.tile, bFmt := b.fmt }

/-- `mconv` (R295): the shape operand and the weights. P0 and M128 stand in `aDesc`. -/
def mconvBody (s : State) (x : Iss) : Act :=
  asHolder s x fun c core =>
    let k := lowest x.m
    let a := x.h.f.a.toNat
    let ptr := x.st.pair k a
    let pm : W64 := if x.st.ctx.wide then x.st.pair k (a + 1) else x.st.pair k (a + 2)
    if bits64 pm 63 33 != 0 then obTrap s x 6
    else
      match readOperand x c core.resv x.h.f.b false with
      | .inl e => obTrap s x e
      | .inr b =>
        if (bit x.h.f.d.toNat 2 && bit pm.toNat 32) || (bit x.h.f.d.toNat 3 && b.m128) then obTrap s x 6
        else s.mqueuePut x c.core { newMCmd s x with
          aBase := ptr, aDesc := pm, bBase := BitVec.ofNat 64 b.base, bDesc := BitVec.ofNat 64 b.desc, bFmt := b.fmt }

/-- `mzero` (R296). -/
def mzeroBody (s : State) (x : Iss) : Act := asHolder s x fun c _ => s.mqueuePut x c.core (newMCmd s x)

/-- `mld` and `mst` (R297): pointer and pitch checks, then the command; the pitch stands in `aDesc`. -/
def mldstBody (s : State) (x : Iss) : Act :=
  asHolder s x fun c _ =>
    let k := lowest x.m
    let p := x.st.pair k x.h.f.a.toNat
    let pitch := (x.st.src k x.h.f.b).toNat
    let sp := bits p.toNat 63 60
    if decide (2 < sp) || !spaceZeros sp p.toNat then .done { s := s.trapLanes x.i x.m 0x07 x.pc 4 0 }
    else if p.toNat % 16 != 0 || pitch % 16 != 0 then .done { s := s.trapLanes x.i x.m 0x06 x.pc 4 0 (fun _ => p) }
    else s.mqueuePut x c.core { newMCmd s x with aBase := p, aDesc := BitVec.ofNat 64 pitch }

/-- The fields of `mconv`'s shape record (R295). -/
structure Shape where
  act : Nat
  ih : Nat
  iw : Nat
  c : Nat
  oh : Nat
  ow : Nat
  kh : Nat
  kw : Nat
  sy : Nat
  sx : Nat
  dy : Nat
  dx : Nat
  padt : Nat
  padl : Nat
  fill : Nat
  rot : Nat

def Shape.of (b : List Byte) : Shape where
  act := leAt b 0 8 % 2 ^ 22
  ih := leAt b 8 2
  iw := leAt b 10 2
  c := leAt b 12 2
  oh := leAt b 14 2
  ow := leAt b 16 2
  kh := leAt b 18 1
  kw := leAt b 19 1
  sy := leAt b 20 1
  sx := leAt b 21 1
  dy := leAt b 22 1
  dx := leAt b 23 1
  padt := leAt b 24 2
  padl := leAt b 26 2
  fill := leAt b 28 4
  rot := leAt b 32 1 % 8

/-- The bytes of the activations of a started `mconv`. -/
def MCmd.actLen (m : MCmd) : Nat := ((Shape.of m.shape).ih * (Shape.of m.shape).iw + 63) / 64 * ((Shape.of m.shape).c / 64) * blockLen m.aFmt

/-- The region of an `mzero`, `mld` or `mst`: first row, first column, size (R293). -/
def MCmd.region (m : MCmd) : Nat × Nat × Nat :=
  if bit m.d 2 then (64 * (m.d / 16 % 2), 64 * (m.d / 8 % 2), 64) else (0, 0, 128)

/-- The format of an `mld` or `mst` (R297). -/
def MCmd.fmt (m : MCmd) : Fmt := [fp32, fp16, bf16, e4m3, e5m2].getD (m.x % 8) fp32

/-- Whether a row of an `mld` reads n bytes of a core's SRAM. -/
def State.rowReads (s : State) (c : Cx) (m : MCmd) (loc n row : Nat) : Bool :=
  let p := m.aBase.toNat
  let a := p % 2 ^ 22 + row * m.aDesc.toNat
  let k := m.region.2.2 * (m.fmt.width / 8)
  match bits p 63 60 with
  | 1 => meets (sramLoc (16 * bits p 59 54 + bits p 53 50) a) k loc n
  | 2 => match s.groupPlace c p a k with | .place l _ _ => meets l k loc n | _ => false
  | _ => false

/-- Whether an outstanding command reads a range of the holder's allotment (R283). What an `mconv` reads is not known
before it has read its shape record. -/
def State.readsRange (s : State) (c : Cx) (r : Resv) (m : MCmd) : Bool :=
  let opnd (base desc fmt : Nat) : Bool :=
    (List.range (if descM desc then 2 else 1)).any (fun rb => (List.range (descKb desc)).any (fun kb =>
      meets (descBlk base desc rb kb) (blockLen fmt) r.off r.len))
  match m.op with
  | 0xD2 => (m.aTile.isEmpty && opnd m.aBase.toNat m.aDesc.toNat m.aFmt) || (m.bTile.isEmpty && opnd m.bBase.toNat m.bDesc.toNat m.bFmt)
  | 0xD3 => m.shape.isEmpty || meets (Shape.of m.shape).act m.actLen r.off r.len || opnd m.bBase.toNat m.bDesc.toNat m.bFmt
  | 0xD5 => (List.range m.region.2.2).any (fun row => s.rowReads c m (sramLoc c.core (c.sramBase + r.off)) r.len row)
  | _ => false

/-- `obrel` (R283): waits while an outstanding command reads the range; holding may end (R280). Groups that have
stalled go on in the order in which they stalled. -/
def obrelBody (s : State) (x : Iss) : Act :=
  match s.cx x.st.cx with
  | none => .done { s := s }
  | some c =>
    let core := s.core c.core
    match if core.holder == some x.st.cx then tget core.resv x.h.f.x.toNat else none with
    | none => obTrap s x 1
    | some r =>
      if core.mqueue.any (s.readsRange c r) ||
          s.queuesBehind x.i .holder (fun t => t.cx == x.st.cx && (x.st.waits == some .holder || t.stall.isNone)) then .stall .holder
      else
        let rs := tdel core.resv x.h.f.x.toNat
        let s := s.setCore c.core (fun y => { y with resv := rs })
        .done { s := if rs.isEmpty && core.mqueue.isEmpty then s.endHolding c.core else s }

/-- `mwait` (R298). -/
def mwaitBody (s : State) (x : Iss) : Act :=
  let ids := s.cores.flatMap (fun c => (c.2.mqueue.filter (fun m => m.cx == x.st.cx)).map MCmd.id)
  .done { s := s.putStrand x.i (x.st.mapLanes x.m (fun _ l => { l with act := some .mwait, waitCmds := ids })), ends := true }

/-- `mstat` (R299). -/
def mstatBody (s : State) (x : Iss) : Act :=
  match s.cx x.st.cx with
  | none => .done { s := s }
  | some c =>
    let out := (s.cores.map (fun e => (e.2.mqueue.filter (fun m => m.cx == x.st.cx)).length)).sum
    let hold := (s.core c.core).holder == some x.st.cx
    let v : Word := BitVec.ofNat 32 (out * 2 ^ 28 + c.mstkcode * 2 ^ 24 + (if hold then 2 ^ 23 else 0) + (if c.mstk then 2 ^ 22 else 0) + c.mfstep % 65536)
    .done { s := (s.putStrand x.i (x.st.write32 x.m x.h.f.d.toNat (fun _ => v) (some (.u v)))).updCx x.st.cx
              (fun c => { c with mstk := false, mstkcode := 0, mfstep := 0 })
            dst := .reg x.h.f.d.toNat }

def execObres (f : Rrr) (s : State) : Res := .next (s.issue (hdOf 0xD0 (rrrWord 0xD0 f)) obresBody)
def execObrel (f : Rrr) (s : State) : Res := .next (s.issue (hdOf 0xD1 (rrrWord 0xD1 f)) obrelBody)
def execMma (f : Rrr) (s : State) : Res := .next (s.issue (hdOf 0xD2 (rrrWord 0xD2 f)) mmaBody)
def execMconv (f : Rrr) (s : State) : Res := .next (s.issue (hdOf 0xD3 (rrrWord 0xD3 f)) mconvBody)
def execMzero (f : Rrr) (s : State) : Res := .next (s.issue (hdOf 0xD4 (rrrWord 0xD4 f)) mzeroBody)
def execMld (f : Rrr) (s : State) : Res := .next (s.issue (hdOf 0xD5 (rrrWord 0xD5 f)) mldstBody)
def execMst (f : Rrr) (s : State) : Res := .next (s.issue (hdOf 0xD6 (rrrWord 0xD6 f)) mldstBody)
def execMwait (f : Rrr) (s : State) : Res := .next (s.issue (hdOf 0xD7 (rrrWord 0xD7 f)) mwaitBody)
def execMstat (f : Rrr) (s : State) : Res := .next (s.issue (hdOf 0xD8 (rrrWord 0xD8 f)) mstatBody)

/-! ## Element values (R285 to R287, R290, R295) -/

/-- Half-byte offset within its block of row r, depth c (R243, R285). -/
def blkNib (fmt rot r c : Nat) : Nat :=
  let en := elemNib fmt
  let u := c * en
  let C := max en 1
  let pos := (u / 64 + r * rot) % C
  2 * (r * 32 * en + pos * 32) + u % 64

/-- Bytes the MATRIX path of a core reads at a place of its SRAM or scale memory; none where a sector is
uncorrectable (R292, R300). -/
def State.mview (s : State) (core : Nat) (m : MCmd) (l n : Nat) : Option (List Byte) :=
  if (sectorsOf l n).any s.poison.contains then none else some (s.viewRead m.ord 0 0 .matrix (core / 16) l n)

/-- The value of the element at row r, depth c of the block at allotment offset `blk` of range `rg`. -/
def State.elemVal (s : State) (core : Nat) (cx : Cx) (m : MCmd) (rg : Resv) (blk rot r c : Nat) : Option FpNum :=
  let en := elemNib rg.fmt
  let nib := blkNib rg.fmt rot r c
  match s.mview core m (sramLoc core (cx.sramBase + blk + nib / 2)) (max 1 (en / 2)) with
  | none => none
  | some bs =>
    let v := if en == 1 then leNat bs / 16 ^ (nib % 2) % 16 else leNat bs
    if isZb rg.fmt then
      let q := (blk - rg.off) / blockLen rg.fmt * 4096 + r * 64 + c
      match s.mview core m (scaleLoc core (rg.soff + 2 * (q / 32))) 2 with
      | none => none
      | some e => some (zbVal (rg.fmt == 0x19) v (leAt e 0 1) (leAt e 1 1))
    else some ((fmtOf rg.fmt).val v)

/-- The value of a register tile's element at row i, depth k (R287). -/
def tileVal (t : List Word) (fmt i k : Nat) : FpNum :=
  let per := if elemNib fmt = 4 then 2 else 4
  let w := (t.getD (i / 2 * 8 + 4 * (i % 2) + k / per) 0).toNat
  (fmtOf fmt).val (w / 2 ^ (4 * elemNib fmt * (k % per)) % 2 ^ (4 * elemNib fmt))

/-- The value of an operand's element at row i, depth k; none where a read is uncorrectable. -/
def State.opVal (s : State) (core : Nat) (cx : Cx) (m : MCmd) (tile : List Word) (base desc fmt i k : Nat) : Option FpNum :=
  if !tile.isEmpty then some (tileVal tile fmt i k)
  else
    match rangeOf (s.core core).resv base with
    | none => none
    | some rg => s.elemVal core cx m rg (descBlk base desc (i / 64) (k / 64)) (descRot desc) (i % 64) (k % 64)

/-! ## `mconv`'s shape record (R295) -/

/-- The activations' offset and range where a shape record keeps every rule of R295. -/
def shapeOk (cx : Cx) (rs : Tab Resv) (m : MCmd) (b : List Byte) : Option (Nat × Resv) :=
  let h := Shape.of b
  let one (n : Nat) : Bool := decide (1 ≤ n) && decide (n ≤ 16)
  if h.ih == 0 || h.iw == 0 || h.oh == 0 || h.ow == 0 || h.c % 64 != 0 || decide (h.c < 64) || decide (16320 < h.c) ||
      !(one h.kh && one h.kw && one h.sy && one h.sx && one h.dy && one h.dx) || leAt b 32 1 / 8 != 0 ||
      (b.drop 33).any (· != 0) || h.kh * h.kw * h.c / 64 != descKb m.bDesc.toNat then none
  else
    match operandOff cx (BitVec.ofNat 64 (leAt b 0 8)) with
    | none => none
    | some act =>
      match rangeOf rs act with
      | none => none
      | some rg =>
        let bl := blockLen rg.fmt
        let n := (h.ih * h.iw + 63) / 64 * (h.c / 64) * bl
        if act % 256 != 0 || (isZb rg.fmt && (act - rg.off) % bl != 0) || decide (rg.off + rg.len < act + n) ||
            depthOf rg.fmt != depthOf m.bFmt then none
        else some (act, rg)

/-- The A value of `mconv` at region row i', depth k: none for a skipped row, else the value or an
uncorrectable read (R295). -/
def State.convVal (s : State) (core : Nat) (cx : Cx) (m : MCmd) (i k : Nat) : Option (Option FpNum) :=
  let h := Shape.of m.shape
  let p := m.aDesc.toNat % 2 ^ 32 + i
  if h.oh * h.ow ≤ p then none
  else
    let tap := k / h.c
    let c := k % h.c
    let iy : Int := ((p / h.ow * h.sy + tap / h.kw * h.dy : Nat) : Int) - h.padt
    let ix : Int := ((p % h.ow * h.sx + tap % h.kw * h.dx : Nat) : Int) - h.padl
    if 0 ≤ iy && iy < h.ih && 0 ≤ ix && ix < h.iw then
      let row := (iy * h.iw + ix).toNat
      match rangeOf (s.core core).resv h.act with
      | none => some none
      | some rg =>
        let bl := blockLen rg.fmt
        some (s.elemVal core cx m rg (h.act + row / 64 * (h.c / 64) * bl + c / 64 * bl) h.rot (row % 64) (c % 64))
    else some (some (fp32.val h.fill))

/-! ## Steps (R290, R291) -/

def MCmd.m128 (m : MCmd) : Bool := if m.op == 0xD3 then bit m.aDesc.toNat 32 else m.aTile.isEmpty && descM m.aDesc.toNat
def MCmd.n128 (m : MCmd) : Bool := m.bTile.isEmpty && descM m.bDesc.toNat

/-- The depth K of a command (R288, R295). -/
def MCmd.depth (m : MCmd) : Nat :=
  if !m.aTile.isEmpty then 32 / elemNib m.aFmt
  else if !m.bTile.isEmpty then 32 / elemNib m.bFmt
  else 64 * descKb m.bDesc.toNat

/-- Steps per subtile. -/
def MCmd.perTile (m : MCmd) : Nat := m.depth / depthOf m.bFmt

/-- The subtiles of the region, ascending. -/
def MCmd.tiles (m : MCmd) : List Nat :=
  (List.range 4).filter (fun t =>
    (m.m128 || t / 2 == (if bit m.d 2 then 1 else 0)) && (m.n128 || t % 2 == (if bit m.d 3 then 1 else 0)))

/-- The steps of an `mma` or `mconv`. -/
def MCmd.steps (m : MCmd) : Nat := m.tiles.length * m.perTile

/-- One step: the new subtile values by row, or none where a read is uncorrectable. A skipped row is empty. -/
def State.stepVals (s : State) (core : Nat) (cx : Cx) (m : MCmd) (t sub : Nat) : Option (List (List Nat)) :=
  let D := depthOf m.bFmt
  let ks := (List.range D).map (D * sub + ·)
  let aRow (i : Nat) : Nat := if m.m128 then 64 * (t / 2) + i else i
  let bRow (j : Nat) : Nat := if m.n128 then 64 * (t % 2) + j else j
  let aVal (i k : Nat) : Option (Option FpNum) :=
    if m.op == 0xD3 then s.convVal core cx m (aRow i) k
    else some (s.opVal core cx m m.aTile m.aBase.toNat m.aDesc.toNat m.aFmt (aRow i) k)
  let as_ := (List.range 64).map (fun i => ks.map (aVal i))
  let bs := (List.range 64).map (fun j => ks.map (fun k => s.opVal core cx m m.bTile m.bBase.toNat m.bDesc.toNat m.bFmt (bRow j) k))
  if as_.any (fun r => r.any (fun v => v == some none)) || bs.any (fun r => r.any Option.isNone) then none
  else
    some (as_.mapIdx (fun i a =>
      if a.any Option.isNone then []
      else bs.mapIdx (fun j b =>
        let acc := leNat (s.homeRead (accLoc core (m.d % 4) (64 * (t / 2) + i) (64 * (t % 2) + j)) 4)
        let prods := (a.zip b).filterMap (fun e => match e.1, e.2 with | some (some x), some y => some (x.mul y) | _, _ => none)
        fp32.round 0 (sumNum 0 (fp32.val acc :: prods)))))

/-- Writes subtile t of accumulator n from rows of codes; an empty row is left as it is. -/
def State.putTile (s : State) (core n t : Nat) (rows : List (List Nat)) : State :=
  ((rows.mapIdx (fun i r => (i, r))).filter (fun e => !e.2.isEmpty)).foldl (fun s e =>
    s.homeWrite (accLoc core n (64 * (t / 2) + e.1) (64 * (t % 2))) (e.2.flatMap (toLE 4))) s

/-- Changes the command at the front of a core's queue. -/
def State.updFront (s : State) (core : Nat) (f : MCmd → MCmd) : State :=
  s.setCore core (fun y => { y with mqueue := match y.mqueue with | m :: ms => f m :: ms | [] => [] })

/-- The engine command that stands for a matrix command's accesses through pointers. -/
def MCmd.asCmd (m : MCmd) (fn : Nat) : Cmd where
  id := m.id
  op := m.op
  cx := m.cx
  fn := fn
  strand := m.strand
  lane := m.lane
  nb := true
  qs := false
  mode := false
  bar := 0
  opd := 0
  opa := 0
  word := 0
  nominal := 0
  landed := 0
  started := true
  checked := false
  cancel := false
  block := []
  ord := m.ord
  node := none
  wids := []

/-- The first of some segments whose home refuses a command's access, and why (step 7 of R175). -/
def State.segRefused (s : State) (ls : List Seg) (w : Bool) : Option (Seg × Stop) :=
  ls.findSome? (fun g => (s.homeRefuses g.fn g.loc g.n w).map (fun x => (g, x)))

/-- Reads bytes at an offset of a pointer on the MATRIX path. -/
def State.mread (s : State) (core : Nat) (m : MCmd) (fn : Nat) (p : W64) (off n : Nat) : State × Eg (List Byte) :=
  match s.engSegs (core / 16) (m.asCmd fn) p off n { r := true } with
  | (s, .bad x) => (s, .bad x)
  | (s, .wait) => (s, .wait)
  | (s, .ok ls) =>
    match s.segRefused ls false with
    | some (g, x) => (s.afterRefusal g.fn g.loc g.n false x, .bad (engStatus m.op x.code))
    | none =>
      match ls.foldl (fun (t : Option State) g => t.bind (·.lookOver m.ord 0 .matrix (core / 16) g.loc g.n)) (some s) with
      | none => (s, .wait)
      | some s => (s, .ok (ls.flatMap (fun g => s.viewRead m.ord 0 0 .matrix (core / 16) g.loc g.n)))

/-- Writes bytes at an offset of a pointer on the MATRIX path, in units its own path sees at once (R300). -/
def State.mwriteAt (s : State) (core : Nat) (m : MCmd) (fn : Nat) (p : W64) (off : Nat) (bs : List Byte) : State × Eg Unit :=
  match s.engSegs (core / 16) (m.asCmd fn) p off bs.length { w := true } with
  | (s, .bad x) => (s, .bad x)
  | (s, .wait) => (s, .wait)
  | (s, .ok ls) =>
    match s.segRefused ls true with
    | some (g, x) => (s.afterRefusal g.fn g.loc g.n true x, .bad (engStatus m.op x.code))
    | none =>
      let die := core / 16
      let put (a : State × List Byte) (g : Seg) : State × List Byte :=
        let s := a.1
        let w : Wr := {
          id := s.nextId, strand := m.strand, lane := m.lane, cx := m.cx, fn := fn, path := .matrix, die := die, loc := g.loc
          op := .store, data := a.2.take g.n, strong := false, carry := [], vis := [(.matrix, die)], all := false
          cmd := some m.id, wait := 0, pc := 0, ptr := 0 }
        let s := { s with nextId := s.nextId + 1, applied := s.applied ++ [w] }
        ((s.touch g.loc g.n).updFront core (fun m => { m with wids := m.wids ++ [(w.id, .matrix)] }), a.2.drop g.n)
      ((ls.foldl put (s, bs)).1, .ok ())

/-- Starts an `mconv`: reads and checks its shape record; its ACT becomes the SELF pointer of its offset. -/
def State.convStart (s : State) (core : Nat) (cx : Cx) (m : MCmd) : State :=
  let bad (s : State) (x : Nat) : State := s.updFront core (fun m => { m with status := some x })
  if !engPtrOk m.aBase 64 || decide (2 < bits m.aBase.toNat 63 60) || m.aBase.toNat % 64 != 0 then bad s 8
  else
    match s.mread core m cx.fn m.aBase 0 64 with
    | (s, .wait) => s
    | (s, .bad x) => bad s (if x == 8 then 8 else x)
    | (s, .ok b) =>
      match shapeOk cx (s.core core).resv m b with
      | none => bad s 8
      | some (act, rg) =>
        s.updFront core (fun m => { m with shape := toLE 8 (2 * 2 ^ 60 + 2 ^ 41 + act) ++ b.drop 8, aFmt := rg.fmt })

/-- Whether the work of a function's engines goes on, but for QUIESCE (R391, R393). -/
def State.engLive (s : State) (f : Nat) : Bool := s.fnLive f && !s.mg.tripped && s.mg.boot == 1

/-- Whether a matrix command stops at checkpoints rather than running to its end once started (R301). -/
def MCmd.checkpoints (m : MCmd) : Bool := (m.op == 0xD2 && m.aTile.isEmpty && m.bTile.isEmpty) || m.op == 0xD3

/-- Whether a command stands where a save finds it: at a checkpoint of its subtile, or not started (R291, R301). -/
def MCmd.atStop (m : MCmd) : Bool := if m.checkpoints then m.step % m.perTile % 32 == 0 else m.step == 0

/-- Whether a save or a quiesce may take the engine with this command at its front. -/
def MCmd.rests (m : MCmd) : Bool := m.status.isNone && m.atStop && (m.step == 0 || decide (m.step < m.steps))

/-- Whether a matrix command may go on: not while its context is stopped for a save or its function quiesced,
unless it is past its start and not at a checkpoint (R301, R393); and it starts only when the acquires issued before it
that order it have returned (R214, R216). -/
def State.matrixGo (s : State) (cx : Cx) (m : MCmd) : Bool :=
  s.engLive cx.fn &&
  (((s.func cx.fn).quiesce.isNone && !s.allStopped cx) || !m.atStop) &&
  !(m.step == 0 && m.shape.isEmpty && s.acqPending m.strand m.lane .matrix m.id)

/-- MATRIX_STEP (R290): one step of the `mma` or `mconv` at the front of the queue; an uncorrectable operand
gives it its status (R292). What it reads, its observer sees from then on; it waits where it may not yet (R210). -/
def State.matrixStep (s : State) (core : Nat) : State :=
  match (s.core core).mqueue with
  | [] => s
  | m :: _ =>
    match s.cx m.cx with
    | none => s
    | some cx =>
      if (m.op != 0xD2 && m.op != 0xD3) || m.status.isSome || !s.matrixGo cx m then s
      else if m.op == 0xD3 && m.shape.isEmpty then s.convStart core cx m
      else if m.steps ≤ m.step then s
      else
        let t := m.tiles.getD (m.step / m.perTile) 0
        let sees (s : State) (a n : Nat) : Option State := s.lookOver m.ord 0 .matrix (core / 16) a n
        match (sees s (sramLoc core cx.sramBase) cx.hdr.sram).bind (sees · (scaleLoc core 0) 65536) with
        | none => s
        | some s =>
        match s.stepVals core cx m t (m.step % m.perTile) with
        | none => s.updFront core (fun m => { m with status := some 4 })
        | some rows => (s.putTile core (m.d % 4) t rows).updFront core (fun m => { m with step := m.step + 1 })

def execMatrixStep (core : Nat) (s : State) : Res := .next (s.matrixStep core)

/-! ## Rows of `mld` and `mst`, and the end of a command (R292, R296 to R299) -/

/-- Moves one row of the region between the accumulator and memory. -/
def State.mrow (s : State) (core fn : Nat) (m : MCmd) (row : Nat) : State × Eg Unit :=
  let (r0, c0, n) := m.region
  let e := m.fmt.width / 8
  let off := row * m.aDesc.toNat
  let a := accLoc core (m.d % 4) (r0 + row) c0
  if m.op == 0xD5 then
    match s.mread core m fn m.aBase off (n * e) with
    | (s, .ok bs) =>
      let code (k : Nat) : Nat := if m.x % 8 = 0 then
          (let c := leAt bs (4 * k) 4; if isNan32 (w32 c) then 0x7FC00000 else c) else widen m.fmt (leAt bs (k * e) e)
      (s.homeWrite a ((List.range n).flatMap (fun k => toLE 4 (code k))), .ok ())
    | (s, .bad x) => (s, .bad x)
    | (s, .wait) => (s, .wait)
  else
    let bs := s.homeRead a (4 * n)
    let code (k : Nat) : Nat := let c := leAt bs (4 * k) 4; if m.x % 8 = 0 then c else m.fmt.sat 0 (fp32.val c)
    s.mwriteAt core m fn m.aBase off ((List.range n).flatMap (fun k => toLE e (code k)))

/-- The rows of an `mld` or `mst` from `step` upward, up to the first that fails. A wait keeps the rows done. -/
def State.mrows (s : State) (core fn : Nat) (m : MCmd) : Nat → Nat → State × Eg Unit
  | 0, _ => (s, .ok ())
  | fuel + 1, row =>
    match s.mrow core fn m row with
    | (s, .ok _) => (s.updFront core (fun m => { m with step := row + 1 })).mrows core fn m fuel (row + 1)
    | r => r

/-- Ends the command at the front of a core's queue with a status (R289, R298, R299). -/
def State.mEnd (s : State) (core : Nat) (x : Nat) : State :=
  match (s.core core).mqueue with
  | [] => s
  | m :: ms =>
    let st := if m.op == 0xD2 || m.op == 0xD3 then m.step else 0
    let s := (s.setCore core (fun y => { y with mqueue := ms })).countPoison (s.coreSlice core) core x
    let s := s.updCx m.cx (fun c =>
      let c := { c with mwids := addWrites c.mwids m.wids }
      if x = 0 then c
      else { c with
        mfstep := if c.mstkcode = 0 then st else c.mfstep
        mstk := true
        mstkcode := if c.mstkcode = 0 then x else c.mstkcode
        wstep := if c.werr = 0 then st else c.wstep
        werr := if c.werr = 0 then x else c.werr })
    let s := s.unstall .matrix (fun t => s.homeUnit t == core)
    let s := s.unstallAll .holder (fun t => t.cx == m.cx)
    (((s.cx m.cx).map Cx.strands).getD []).foldl (fun s i => s.evalMwait i) s

/-- MATRIX_COMMAND_END (R289): the front command ends when its steps are done or one has failed; `mzero`, `mld`
and `mst` are performed here. -/
def State.matrixEnd (s : State) (core : Nat) : State :=
  match (s.core core).mqueue with
  | [] => s
  | m :: _ =>
    match s.cx m.cx with
    | none => s
    | some cx =>
      if !s.engLive cx.fn then s else
      match m.status with
      | some x => s.mEnd core x
      | none =>
        if (m.op != 0xD2 && m.op != 0xD3) && !s.matrixGo cx m then s else
        match m.op with
        | 0xD4 =>
          let (r0, c0, n) := m.region
          let s := (List.range n).foldl (fun s i => s.homeWrite (accLoc core (m.d % 4) (r0 + i) c0) (List.replicate (4 * n) 0)) s
          s.mEnd core 0
        | 0xD5 | 0xD6 =>
          let (_, _, n) := m.region
          match s.mrows core cx.fn m (n - m.step) m.step with
          | (s, .ok _) => s.mEnd core 0
          | (s, .bad x) => s.mEnd core x
          | (s, .wait) => s
        | _ => if (m.op == 0xD3 && m.shape.isEmpty) || m.step < m.steps then s else s.mEnd core 0

def execMatrixCommandEnd (core : Nat) (s : State) : Res := .next (s.matrixEnd core)

end Sys2Proof.Machine
end

