-- ==== Sys2Proof/Machine/Comb.lean ====
section
/-! DEFINITION. Comb units (R337 to R364): the instructions of stack-core code, the waves in which the banks
of a pseudo-channel run a command, and the start of an instance. -/
namespace Sys2Proof.Machine

/-! ## Lookups -/

/-- The comb instance of a strand's context. -/
def State.instOf (s : State) (st : Strand) : Option Inst := tget s.insts st.cx

/-- Changes a comb instance's own registers. -/
def State.updInst (s : State) (c : Nat) (f : Inst → Inst) : State :=
  match tget s.insts c with
  | some i => { s with insts := tset s.insts c (f i) }
  | none => s

/-- The banks a command of an instance selects (R343). -/
def Inst.banks (i : Inst) : List Nat := if i.all then List.range 16 else [i.modeBank]

/-- The channels of a slice in ascending order (R337). -/
def State.channels (s : State) (slice : Nat) : List Nat := (List.range 1024).filter (fun c => s.chanSlice c == slice)

/-! ## Issue (R343, R348 to R360) -/

/-- Places a command in the instruction buffer of every selected bank, or stalls while one is full (R343) or is being reset
(R413). An entry that
frees ends the stall of the instance that waits for it, so another does not take the last one. -/
def combPlace (s : State) (x : Iss) (i : Inst) (a b : W64) : Act :=
  let full (k : Nat) : Bool := decide (64 ≤ (s.bank i.modeChan k).buf.length)
  let scarce (k : Nat) : Bool := decide (63 ≤ (s.bank i.modeChan k).buf.length)
  let near (t : Strand) : Bool := (s.instOf t).any (fun j => j.modeChan == i.modeChan && j.banks.any (fun k => i.banks.contains k && scarce k))
  if i.banks.any full || s.chanReset i.modeChan || s.queuesBehind x.i .comb near then .stall .comb
  else
    let c : CCmd := {
      id := s.nextId, op := x.h.row.op, f := x.h.f, inst := x.st.cx, fn := s.fnOf x.st, slice := s.fnOf x.st
      die := dieOfUnit (s.unitOf x.st), aVal := a, bVal := b, eff := none, ord := (x.st.lane 0).ord, parity := false }
    let s := i.banks.foldl (fun s k => s.setBank i.modeChan k (fun y => { y with buf := y.buf ++ [c] })) s
    .done { s := { s.updInst x.st.cx (fun i => { i with outCmds := i.outCmds ++ [c.id] }) with nextId := s.nextId + 1 } }

/-- The precise trap `code` of a comb instruction. -/
def combTrap (s : State) (x : Iss) (code : Nat) (detail : Nat := 0) (addr : W64 := 0) : Act :=
  .done { s := s.trapLanes x.i x.m code x.pc x.h.len detail (fun _ => addr) }

/-- Runs the body of an instruction of a comb instance. -/
def asInst (s : State) (x : Iss) (body : Inst → Act) : Act :=
  match s.instOf x.st with
  | some i => body i
  | none => .done { s := s }

/-- A command without a source pointer: the row word, or the block-table word and its scales. -/
def combCmd (s : State) (x : Iss) : Act :=
  asInst s x fun i => combPlace s x i ((x.st.src 0 x.h.f.a).setWidth 64)
    (if x.h.row.op == 0xE9 then x.st.pair 0 x.h.f.b.toNat else 0)

/-- A row move of 64 bytes: an odd SECTOR raises ALIGN (R349). -/
def combRow (s : State) (x : Iss) : Act :=
  if (x.st.src 0 x.h.f.a).getLsbD 16 then combTrap s x 0x06 else combCmd s x

/-- `cmode` (R350). -/
def cmodeBody (s : State) (x : Iss) : Act :=
  asInst s x fun _ =>
    let v := (x.st.src 0 x.h.f.a).toNat
    let unit := s.unitOf x.st
    let chan := 64 * ((unit - 1024) / 16) + bits v 5 0
    if bits v 5 2 != unit % 16 then combTrap s x 0x07
    else if !s.chanOpen (s.fnOf x.st) chan then combTrap s x 0x0B
    else .done { s := s.updInst x.st.cx (fun i => { i with
      all := x.h.f.x.getLsbD 0, modeChan := chan, modeBank := if x.h.f.x.getLsbD 0 then 0 else bits v 9 6 }) }

/-- The checks `cbcast` and `ctbl.wr` make on their source pointer and stride (R351, R356); a trap after step 3 of R175
records the pointer's location. -/
def combSource (s : State) (x : Iss) (stride : Nat) (go : Act) : Act :=
  let p := (x.st.pair 0 x.h.f.a.toNat).toNat
  let sp := bits p 63 60
  if sp != 0 && sp != 5 then combTrap s x 0x07
  else if (match locate .S (BitVec.ofNat 64 p) 0 false with | .inl _ => true | .inr _ => false) then combTrap s x 0x07
  else if sp == 5 && bits p 59 56 != (s.unitOf x.st - 1024) / 16 then combTrap s x 0x07 0 (BitVec.ofNat 64 p)
  else if p % 64 != 0 || stride % 64 != 0 then combTrap s x 0x06 0 (BitVec.ofNat 64 p)
  else go

/-- `cbcast` (R351). -/
def cbcastBody (s : State) (x : Iss) : Act :=
  let stride := x.st.src 0 x.h.f.b
  combSource s x stride.toNat (asInst s x fun i => combPlace s x i (x.st.pair 0 x.h.f.a.toNat) (stride.setWidth 64))

/-- `ctbl.wr` (R356). -/
def ctblWrBody (s : State) (x : Iss) : Act :=
  combSource s x 0 (asInst s x fun i => combPlace s x i (x.st.pair 0 x.h.f.a.toNat) 0)

/-- `csync` (R359): waits for every command, then reports the first status that was not OK. -/
def csyncBody (s : State) (x : Iss) : Act :=
  asInst s x fun i =>
    if !i.outCmds.isEmpty then .stall .fence
    else
      let s := s.updStrand x.i (fun st => st.mapLanes x.m (fun _ l =>
        { l with ord := { l.ord with hist := addWrites l.ord.hist i.wids, must := addWrites l.ord.must i.wids } }))
      let s := s.updInst x.st.cx (fun i => { i with wids := [] })
      if i.stk then
        combTrap (s.updInst x.st.cx (fun i => { i with stk := false, stkcode := 0, bank := 0, pch := 0 })) x 0x22
          (i.stkcode + 48 + i.bank * 256 + i.pch * 65536)
      else .done { s := s }

/-- The `cstat` word of an instance (R360). -/
def State.cstatWord (s : State) (i : Inst) : Nat :=
  let res := (List.range 16).any (fun k => (s.bank i.chan k).faulted != 0)
  min 255 i.outCmds.length * 2 ^ 24 + (if i.stk then i.stkcode * 2 ^ 20 + 2 ^ 19 + i.bank * 2 ^ 14 + i.pch * 2 ^ 8 else 0) +
    (if res then 2 ^ 18 else 0)

/-- `cstat` (R360). -/
def cstatBody (s : State) (x : Iss) : Act :=
  asInst s x fun i =>
    let d := x.h.f.d.toNat
    .done { s := (s.putStrand x.i (x.st.write64 x.m d (fun _ => BitVec.ofNat 64 (s.cstatWord i)) none)).updInst x.st.cx
              (fun i => { i with stk := false, stkcode := 0, bank := 0, pch := 0 })
            dst := .reg d }

def execCmode (f : Rrr) (s : State) : Res := .next (s.issue (hdOf 0xE0 (rrrWord 0xE0 f)) cmodeBody)
def execCbcast (f : Rrr) (s : State) : Res := .next (s.issue (hdOf 0xE1 (rrrWord 0xE1 f)) cbcastBody)
def execCldRow (f : Rrr) (s : State) : Res := .next (s.issue (hdOf 0xE2 (rrrWord 0xE2 f)) combRow)
def execCstRow (f : Rrr) (s : State) : Res := .next (s.issue (hdOf 0xE3 (rrrWord 0xE3 f)) combRow)
def execCmac (f : Rrr) (s : State) : Res := .next (s.issue (hdOf 0xE4 (rrrWord 0xE4 f)) combCmd)
def execCdot (f : Rrr) (s : State) : Res := .next (s.issue (hdOf 0xE5 (rrrWord 0xE5 f)) combCmd)
def execCred (f : Rrr) (s : State) : Res :=
  .next (s.issue (hdOf 0xE6 (rrrWord 0xE6 f)) fun s x => asInst s x fun i => combPlace s x i 0 0)
def execCwr (f : Rrr) (s : State) : Res := .next (s.issue (hdOf 0xE7 (rrrWord 0xE7 f)) combRow)
def execClut (f : Rrr) (s : State) : Res :=
  .next (s.issue (hdOf 0xE8 (rrrWord 0xE8 f)) fun s x => asInst s x fun i => combPlace s x i 0 0)
def execCattn (f : Rrr) (s : State) : Res := .next (s.issue (hdOf 0xE9 (rrrWord 0xE9 f)) combCmd)
def execCtblWr (f : Rrr) (s : State) : Res := .next (s.issue (hdOf 0xEA (rrrWord 0xEA f)) ctblWrBody)
def execCtblSwap (f : Rrr) (s : State) : Res :=
  .next (s.issue (hdOf 0xEB (rrrWord 0xEB f)) fun s x => asInst s x fun i => combPlace s x i 0 0)
def execCsync (f : Rrr) (s : State) : Res := .next (s.issue (hdOf 0xEC (rrrWord 0xEC f)) csyncBody)
def execCstat (f : Rrr) (s : State) : Res := .next (s.issue (hdOf 0xED (rrrWord 0xED f)) cstatBody)

/-! ## What a bank reads (R346, R351, R361) -/

/-- The lane number under which a bank's own earlier row writes are seen by its later commands (R344). -/
def bankLane (chan bank : Nat) : Nat := 64 + 16 * chan + bank

/-- Whether a command may not touch n bytes of a row: poisoned sectors or a LOST granule (R346). -/
def State.rowBad (s : State) (a n : Nat) : Bool := (s.granule (granOf a)).lost || (sectorsOf a n).any s.poison.contains

/-- The bytes of sectors of a row as a command sees them; none where they cannot be read. -/
def State.rowRead (s : State) (c : CCmd) (chan bank row sec n : Nat) : Option (List Byte) :=
  let a := rowLoc chan row bank + 32 * sec
  if s.rowBad a (32 * n) then none
  else some (s.viewRead c.ord 0 (bankLane chan bank) .comb (64 + chan / 64) a (32 * n))

/-- The status of a source that stops (R345). -/
def combStatus (code : Nat) : Nat := if code == 0x0B then 3 else if code == 0x0C || code == 0x0D then 4 else 2

/-- Reads n bytes of a space-0x0 source, page by page (R351). -/
def State.combVirt (s : State) (c : CCmd) (unit ln : Nat) : Nat → Nat → Nat → State × Eg (List Byte)
  | 0, _, _ => (s, .ok [])
  | fuel + 1, va, n =>
    if n = 0 then (s, .ok []) else
    let here := min n (65536 - va % 65536)
    let more (s : State) (p : Path) (a : Nat) : State × Eg (List Byte) :=
      match (if s.homeHeld a then none else s.look c.ord 0 ln p (dieOfUnit unit) a here) with
      | none => (s, .wait)
      | some s =>
      match s.combVirt c unit ln fuel (va + here) (n - here) with
      | (s, .ok bs) => (s, .ok (s.viewRead c.ord 0 ln p (dieOfUnit unit) a here ++ bs))
      | r => r
    match s.translate (some unit) (dieOfUnit unit) c.fn va { r := true } with
    | (s, .stop x) => (s, .bad (combStatus x.code))
    | (s, .wait) => (s, .wait)
    | (s, .host a) => more s .host a
    | (s, .dram a) =>
      match s.homeRefuses c.fn a here false with
      | some x => (s.afterRefusal c.fn a here false x, .bad (combStatus x.code))
      | none => more s .comb a

/-- Reads n bytes of a command's source at an offset from its pointer (R351, R356). -/
def State.combSrc (s : State) (c : CCmd) (chan bank off n : Nat) : State × Eg (List Byte) :=
  let p := c.aVal.toNat
  let sp := bits p 63 60
  let w := spaceWidth sp
  let loc := p % 2 ^ w + off
  let unit := 1024 + chan / 64 * 16 + chan % 64 / 4
  if 2 ^ w < loc + n then (s, .bad 8)
  else if sp == 5 then
    let ch := 64 * bits p 59 56 + bits p 55 50
    let a := rowLoc ch (bits p 45 30) (bits p 49 46) + loc
    if !s.chanOpen c.fn ch then (s, .bad 3)
    else if s.homeHeld a then (s, .wait)
    else if s.rowBad a n then (s, .bad 4)
    else
      match s.lookOver c.ord (bankLane chan bank) .comb (64 + chan / 64) a n with
      | none => (s, .wait)
      | some s => (s, .ok (s.viewRead c.ord 0 (bankLane chan bank) .comb (64 + chan / 64) a n))
  else s.combVirt c unit (bankLane chan bank) 3 loc n

/-! ## What a command computes (R351 to R358) -/

/-- The 32-bit words of bytes. -/
def wordsLE (bs : List Byte) : List Word := (List.range (bs.length / 4)).map (fun l => BitVec.ofNat 32 (leAt bs (4 * l) 4))

/-- The mask bits of the lanes of accumulator `a` (R362). -/
def accMask (a : Nat) : BitVec 64 := 0xFFFF#64 <<< (16 * a)

/-- One multiply-accumulate in FP32 of 16-bit operands of a type (R136, R353). -/
def combFma (T : Bool) (t x w : Nat) : Nat := fp32.round 0 (sumNum 0 [((fmt16 T).val x).mul ((fmt16 T).val w), fp32.val t])

/-- The product of two signed bytes modulo 2^32. -/
def combI8 (x w : Nat) : Nat := wrapTo 32 (toSigned 8 x * toSigned 8 w)

/-- The multiplier of sector element e: a 16-bit value, or signed byte e mod 2 of lane ⌊e/2⌋ (R353). -/
def combX (xs : List Word) (i8 : Bool) (e : Nat) : Nat :=
  if i8 then (xs.getD (e / 2) 0).toNat / 256 ^ (e % 2) % 256 else (xs.getD e 0).toNat % 65536

/-- `cmac` in lane l of the sector's bytes (R353). -/
def cmacLane (T i8 : Bool) (xs : List Word) (sec : List Byte) (t l : Nat) : Nat :=
  if i8 then (t + combI8 (combX xs true (2 * l)) (leAt sec (2 * l) 1) + combI8 (combX xs true (2 * l + 1)) (leAt sec (2 * l + 1) 1)) % 2 ^ 32
  else combFma T t (combX xs false l) (leAt sec (2 * l) 2)

/-- `cdot` over the sector's bytes (R353). -/
def cdotAll (T i8 : Bool) (xs : List Word) (sec : List Byte) (t : Nat) : Nat :=
  if i8 then (List.range 32).foldl (fun t e => (t + combI8 (combX xs true e) (leAt sec e 1)) % 2 ^ 32) t
  else (List.range 16).foldl (fun t e => combFma T t (combX xs false e) (leAt sec (2 * e) 2)) t

/-- The pairwise tree of `cred`: adjacent values added, level by level (R136, R354). -/
def credTree (add : Nat → Nat → Nat) : Nat → List Nat → Nat
  | 0, vs => vs.headD 0
  | n + 1, vs => credTree add n ((List.range (vs.length / 2)).map (fun i => add (vs.getD (2 * i) 0) (vs.getD (2 * i + 1) 0)))

/-- `cred` of 16 lanes (R354). -/
def credOf (isInt : Bool) (vs : List Word) : Nat :=
  credTree (fun a b => if isInt then (a + b) % 2 ^ 32 else fp32.add 0 a b) 4 (vs.map BitVec.toNat)

/-- ExpT of R358 over the active table. -/
def expT (tab : List Word) (esc z : Nat) : Nat :=
  match fp32.val z with
  | .nan => 0x7FC00000
  | .inf true => 0
  | v => (tab.getD (min 255 (satInt false 0 (fp32.val (fp32.round 0 (v.negate.mul (fp32.val esc)))))) 0).toNat

/-- The running state of `cattn`: m, l and the accumulated values. -/
structure Attn where
  m : Nat
  l : Nat
  acc : List Nat

/-- One token of `cattn` (R358): its key and value bytes. -/
def attnToken (T : Bool) (tab : List Word) (scl esc dh : Nat) (q : Nat → Nat) (key val : List Byte) (r : Attn) : Attn :=
  let s := (List.range dh).foldl (fun s d => combFma T s (q d) (leAt key (2 * d) 2)) 0
  let s := fp32.mul 0 s scl
  let r : Attn :=
    if (fp32.val r.m).lt (fp32.val s) then
      let c := expT tab esc (fp32.sub 0 r.m s)
      ⟨s, fp32.mul 0 r.l c, r.acc.map (fun a => fp32.mul 0 a c)⟩
    else r
  let p := expT tab esc (fp32.sub 0 s r.m)
  ⟨r.m, fp32.add 0 r.l p, r.acc.mapIdx (fun d a =>
    fp32.round 0 (sumNum 0 [(fp32.val p).mul ((fmt16 T).val (leAt val (2 * d) 2)), fp32.val a]))⟩

/-- The entries of a `cattn` block table, or none where one breaks R357. -/
def attnEntries (bs : List Byte) (h : Nat) : Nat → Nat → Option (List (Nat × Nat × Nat))
  | 0, _ => some []
  | n + 1, e =>
    let v := leAt bs (8 * e) 8
    if bits v 63 38 != 0 || bits v 37 32 == 0 || decide (32 / h < bits v 37 32) then none
    else (attnEntries bs h n (e + 1)).map (fun r => (bits v 15 0, bits v 31 16, bits v 37 32) :: r)

/-- Runs the pages of a `cattn`; none where a row cannot be read. -/
def State.attnPages (s : State) (c : CCmd) (chan bank : Nat) (T : Bool) (tab : List Word) (h : Nat) (q : Nat → Nat) :
    List (Nat × Nat × Nat) → Attn → Option Attn
  | [], r => some r
  | (kr, vr, n) :: es, r =>
    match s.rowRead c chan bank kr 0 (n * h), s.rowRead c chan bank vr 0 (n * h) with
    | some ks, some vs =>
      let r := (List.range n).foldl (fun r t => attnToken T tab (bits64 c.bVal 31 0) (bits64 c.bVal 63 32) (16 * h) q
        ((ks.drop (32 * h * t)).take (32 * h)) ((vs.drop (32 * h * t)).take (32 * h)) r) r
      s.attnPages c chan bank T tab h q es r
    | _, _ => none

/-- `cattn` in one bank (R357, R358): the bank it commits, or a status. -/
def State.attn (s : State) (c : CCmd) (chan bank : Nat) (b : Bank) : Nat ⊕ Bank :=
  let x := c.f.x.toNat
  let T := bit x 0
  let C := bit x 1
  let h := 2 ^ (x / 4)
  let a := c.aVal.toNat
  let q (d : Nat) : Nat := ((b.x.getD (c.f.d.toNat + d / 16) []).getD (d % 16) 0).toNat % 65536
  let accs := (List.range h).foldl (fun m i => m ||| accMask i) 0
  if C && b.faulted &&& accs != 0 then .inl 4
  else
    let ne := bits a 22 16 + 1
    match s.rowRead c chan bank (bits a 15 0) 0 ((8 * ne + 31) / 32) with
    | none => .inl 4
    | some bt =>
      match attnEntries bt h ne 0 with
      | none => .inl 8
      | some es =>
        let x15 := b.x.getD 15 []
        let r0 : Attn :=
          if C then ⟨(x15.getD 0 0).toNat, (x15.getD 1 0).toNat,
            (List.range (16 * h)).map (fun d => ((b.a.getD (d / 16) []).getD (d % 16) 0).toNat)⟩
          else ⟨0xFF800000, 0, List.replicate (16 * h) 0⟩
        match s.attnPages c chan bank T b.active h q es r0 with
        | none => .inl 4
        | some r => .inr { b with
            x := b.x.set 15 ((x15.set 0 (w32 r.m)).set 1 (w32 r.l))
            a := b.a.mapIdx (fun i v => if i < h then (List.range 16).map (fun l => w32 (r.acc.getD (16 * i + l) 0)) else v)
            faulted := b.faulted &&& ~~~accs }

/-- The bytes of its own channel's rows that a command reads or writes in a bank. -/
def State.combRows (s : State) (c : CCmd) (chan bank : Nat) : List (Nat × Nat) :=
  let a := c.aVal.toNat
  let at_ : Nat := rowLoc chan (bits a 15 0) bank + 32 * bits a 20 16
  match c.op with
  | 0xE2 | 0xE3 | 0xE7 => [(at_, 64)]
  | 0xE4 | 0xE5 => [(at_, 32)]
  | 0xE9 =>
    let h := 2 ^ (c.f.x.toNat / 4)
    let ne := bits a 22 16 + 1
    let n := (8 * ne + 31) / 32
    let pages := (s.rowRead c chan bank (bits a 15 0) 0 n).bind (fun bt => attnEntries bt h ne 0)
    (rowLoc chan (bits a 15 0) bank, 32 * n) ::
      (pages.getD []).flatMap (fun e => [(rowLoc chan e.1 bank, 32 * e.2.2 * h), (rowLoc chan e.2.1 bank, 32 * e.2.2 * h)])
  | _ => []

/-- The state in which a bank may run a command: its observer sees what the command reads (R210). None while it may not
yet, or while a granule of its rows is held (R381). -/
def State.combSees (s : State) (c : CCmd) (chan bank : Nat) : Option State :=
  (s.combRows c chan bank).foldl (fun (t : Option State) r =>
    t.bind (fun s => if s.homeHeld r.1 then none else s.lookOver c.ord (bankLane chan bank) .comb (64 + chan / 64) r.1 r.2)) (some s)

/-- What a command gives in one bank: it waits, fails with a status, or commits the bank's registers and 64
bytes of a row. -/
inductive CombOut where
  | wait
  | fail (st : Nat)
  | commit (b : Bank) (row : Option (Nat × List Byte))

/-- Whether the sectors a command would write, or the whole row under E and EIR, are poisoned or LOST (R346). -/
def State.rowNoWrite (s : State) (a : Nat) : Bool :=
  match (s.granule (granOf a)).attr with
  | some 1 | some 2 => s.rowBad (a / 1024 * 1024) 1024
  | _ => s.rowBad a 64

/-- Runs one command in one bank (R351 to R358). -/
def State.combRun (s : State) (chan bank : Nat) (c : CCmd) (b : Bank) : State × CombOut :=
  let f := c.f
  let d := f.d.toNat
  let x := f.x.toNat
  let row := bits64 c.aVal 15 0
  let sec := bits64 c.aVal 20 16
  let at64 := rowLoc chan row bank + 32 * sec
  let i8 := bit x 1
  let z := bit x 2
  let put (vs : List Word) : State × CombOut :=
    if s.rowNoWrite at64 then (s, .fail 4)
    else if s.exhausted at64 then (s.exhaust at64, .fail 4)
    else (s, .commit b (some (at64, vs.flatMap (fun w => toLE 4 w.toNat))))
  match c.op with
  | 0xE1 =>
    match s.combSrc c chan bank (bank * c.bVal.toNat) 64 with
    | (s, .ok bs) => (s, .commit { b with x := b.x.set d (wordsLE bs) } none)
    | (s, .bad st) => (s, .fail st)
    | (s, .wait) => (s, .wait)
  | 0xE2 =>
    match s.rowRead c chan bank row sec 2 with
    | some bs => (s, .commit { b with x := b.x.set d (wordsLE bs) } none)
    | none => (s, .fail 4)
  | 0xE3 => put (b.x.getD d [])
  | 0xE4 =>
    if !z && b.faulted &&& accMask d != 0 then (s, .fail 4)
    else
      match s.rowRead c chan bank row sec 1 with
      | none => (s, .fail 4)
      | some bs =>
        let acc := b.a.getD d []
        let v := (List.range 16).map (fun l => w32 (cmacLane (bit x 0) i8 (b.x.getD f.b.toNat []) bs (if z then 0 else (acc.getD l 0).toNat) l))
        (s, .commit { b with a := b.a.set d v, faulted := b.faulted &&& ~~~(accMask d) } none)
  | 0xE5 =>
    let l := bits64 c.aVal 27 24
    let own : BitVec 64 := 1#64 <<< (16 * d + l)
    if !z && b.faulted &&& own != 0 then (s, .fail 4)
    else
      match s.rowRead c chan bank row sec 1 with
      | none => (s, .fail 4)
      | some bs =>
        let acc := b.a.getD d []
        let v := w32 (cdotAll (bit x 0) i8 (b.x.getD f.b.toNat []) bs (if z then 0 else (acc.getD l 0).toNat))
        (s, .commit { b with a := b.a.set d (acc.set l v), faulted := b.faulted &&& ~~~own } none)
  | 0xE6 =>
    if b.faulted &&& accMask f.a.toNat != 0 then (s, .fail 4)
    else (s, .commit { b with
      a := b.a.set d ((List.replicate 16 0).set 0 (w32 (credOf (bit x 0) (b.a.getD f.a.toNat []))))
      faulted := b.faulted &&& ~~~(accMask d) } none)
  | 0xE7 => if b.faulted &&& accMask d != 0 then (s, .fail 4) else put (b.a.getD d [])
  | 0xE8 =>
    let look (w : Word) : Word :=
      let v := b.active.getD (w.toNat % 256) 0
      if x == 0 then v else w32 ((fmt16 (x == 2)).sat 0 (fp32.val v.toNat))
    (s, .commit { b with x := b.x.set d ((b.x.getD f.a.toNat []).map look) } none)
  | 0xE9 =>
    match s.attn c chan bank b with
    | .inl st => (s, .fail st)
    | .inr b => (s, .commit b none)
  | 0xEA =>
    match s.combSrc c chan bank 0 1024 with
    | (s, .ok bs) => (s, .commit { b with shadow := wordsLE bs } none)
    | (s, .bad st) => (s, .fail st)
    | (s, .wait) => (s, .wait)
  | _ => (s, .commit { b with active := b.shadow, shadow := b.active } none)

/-! ## Ends and waves (R341, R344, R345) -/

/-- Writes 64 bytes of a row as two single-copy atomic sectors, applied at once (R223, R346, R352). -/
def State.combWrite (s : State) (c : CCmd) (chan bank a : Nat) (bs : List Byte) : State :=
  let w (k : Nat) : Wr := {
    id := s.nextId + k, strand := 0, lane := bankLane chan bank, cx := c.inst, fn := c.fn, path := .comb, die := 64 + chan / 64
    loc := a + 32 * k, op := .store, data := (bs.drop (32 * k)).take 32, strong := false, carry := [], vis := [], all := false
    cmd := some c.id, wait := 0, pc := 0, ptr := 0 }
  let s := { s with applied := s.applied ++ [w 0, w 1], nextId := s.nextId + 2 }
  let s := s.updInst c.inst (fun i => { i with wids := i.wids ++ [((w 0).id, .comb), ((w 1).id, .comb)] })
  s.touch a 64

/-- Ends a command in one bank with a status: its buffer entry frees, and it stops being outstanding once no
bank holds it (R343 to R345). -/
def State.combEnd (s : State) (chan bank : Nat) (c : CCmd) (st : Nat) : State :=
  let s := s.setBank chan bank (fun b => { b with buf := b.buf.filter (fun e => e.id != c.id) })
  let s := s.countPoison c.slice (8192 + 16 * chan + bank) st
  let left := (List.range 16).any (fun k => (s.bank chan k).buf.any (fun e => e.id == c.id))
  let s := s.updInst c.inst (fun i =>
    let i := if left then i else { i with outCmds := i.outCmds.erase c.id }
    if st == 0 || i.stk then i
    else { i with stk := true, stkcode := st, bank := bank, pch := chan % 64, firstErr := s.clock })
  match tget s.insts c.inst with
  | some i => if left then s else s.settle i.strand
  | none => s

/-- Runs the command of one bank to its end and commits it, unless what it reads has to wait. A word that fails its
parity check is not run, and a result that fails its residue check is not committed (R344, R347). -/
def State.combBank (s : State) (chan bank id : Nat) : State :=
  match (s.bank chan bank).buf.find? (fun e => e.id == id) with
  | none => s
  | some c =>
    if c.parity || (c.bad && (c.op == 0xE4 || c.op == 0xE5 || c.op == 0xE6 || c.op == 0xE9)) then s.combEnd chan bank c 4
    else if s.chanSlice chan != c.fn then s.combEnd chan bank c 3
    else
      match s.combSees c chan bank with
      | none => s
      | some s =>
      match s.combRun chan bank c (s.bank chan bank) with
      | (s, .wait) => s
      | (s, .fail st) => s.combEnd chan bank c st
      | (s, .commit b none) => (s.setBank chan bank (fun _ => b)).combEnd chan bank c 0
      | (s, .commit b (some (a, bs))) => ((s.setBank chan bank (fun _ => b)).combWrite c chan bank a bs).combEnd chan bank c 0

/-- The cap the power controller puts on computing banks (R424). -/
def bankCap (stage : Nat) : Nat := if stage < 2 then 16 else if stage < 4 then 4 else 1

/-- EFF of a stack (R340). -/
def State.effBanks (s : State) (stack : Nat) : Nat := min (tgetD s.mg.banklim stack 8) (bankCap s.mg.stage)

/-- The oldest command of a pseudo-channel and the banks that still hold it. -/
def State.combOldest (s : State) (chan : Nat) : Option (CCmd × List Nat) :=
  let heads := (List.range 16).filterMap (fun k => (s.bank chan k).buf.head?)
  match heads with
  | [] => none
  | c :: cs =>
    let c := cs.foldl (fun a b => if b.id < a.id then b else a) c
    some (c, (List.range 16).filter (fun k => (s.bank chan k).buf.any (fun e => e.id == c.id)))

/-- COMB_WAVE_START (R341): the next wave of a pseudo-channel's oldest command runs, EFF banks at a time in
ascending bank number, EFF taken at the command's start; each bank's command ends and commits (R344). It starts when the
acquires issued before it that order it have returned (R216). A command that has not started when its channel is being removed ends SLICE (R371). -/
def execCombWaveStart (chan : Nat) (s : State) : Res :=
  .next (match s.combOldest chan with
    | none => s
    | some (c, ks) =>
      if s.mg.tripped || !(s.fnLive c.fn || ((s.cx c.inst).bind Cx.preempt).isSome) then s
      else if c.eff.isNone && (tget s.insts c.inst).any (fun i => s.acqPending i.strand 0 .comb c.id) then s
      else if c.eff.isNone && s.closing 3 chan then ks.foldl (fun s k => s.combEnd chan k c 3) s
      else
      let eff := c.eff.getD (max 1 (s.effBanks (chan / 64)))
      let s := ks.foldl (fun s k => s.setBank chan k (fun b => { b with
        buf := b.buf.map (fun e => if e.id == c.id then { e with eff := some eff } else e) })) s
      let g := ks.headD 0 / eff
      ((ks.filter (fun k => k / eff == g)).foldl (fun s k => s.combBank chan k c.id) s).fold)

/-! ## Instances (R337 to R339) -/

/-- Whether a channel holds an instance. -/
def State.chanBusy (s : State) (chan : Nat) : Bool :=
  s.insts.any (fun e => e.2.chan == chan && ((s.cx e.2.cx).map Cx.resident).getD false)

/-- A comb unit whose contents are undefined (R342); no lane of it is faulted, and the commands that other instances
have issued to it stay in its buffer until they end (R343). -/
def Bank.undefinedFrom (n : Nat) (b : Bank) : Bank where
  x := (List.range 16).map (fun r => (List.range 16).map (fun l => Config.freeWord (n + 16 * r + l)))
  a := (List.range 4).map (fun r => (List.range 16).map (fun l => Config.freeWord (n + 256 + 16 * r + l)))
  active := (List.range 256).map (fun e => Config.freeWord (n + 320 + e))
  shadow := (List.range 256).map (fun e => Config.freeWord (n + 576 + e))
  faulted := 0
  buf := b.buf

/-- The banks of a channel become undefined (R342). -/
def State.undefineBanks (s : State) (chan : Nat) : State :=
  (List.range 16).foldl (fun s k =>
    { s.setBank chan k (Bank.undefinedFrom s.freeCtr) with freeCtr := s.freeCtr + 832 }) s

/-- A strand that holds what it starts with: a history whose writes its own paths see (R221, R222). -/
def Ord.start (o : Ord) : Ord := { hist := o.hist, must := o.hist, rel := 0 }

/-- Whether instance `idx` of a comb node waits for its start and its own channel can take it (R337). -/
def State.instReady (s : State) (node : Nat) (n : Node) (idx : Nat) : Bool :=
  !n.completed.contains idx && !s.cxs.any (fun e => e.2.node == node && e.2.wg == idx) &&
  (match (s.channels n.slice)[idx]? with
   | some chan => s.chanOpen n.slice chan && !s.chanBusy chan && !s.chanReset chan && !s.keptFor (2048 + chan) 0
   | none => false)

/-- Instance `idx` of a comb node begins on its own channel (R337, R338). -/
def State.beginInst (s : State) (node : Nat) (n : Node) (idx : Nat) : State :=
  match (s.channels n.slice)[idx]? with
  | none => s
  | some chan =>
    let c := s.nextId
    let unit := 1024 + chan / 64 * 16 + chan % 64 / 4
    let st := Strand.at .S c (BitVec.ofNat 48 (n.body.toNat + n.hdr.combEnt)) 1
    let st := { st with
      sregs := ((List.replicate 56 0).set 0 n.args).set 1 (BitVec.ofNat 64 idx) |>.set 2 (BitVec.ofNat 64 (chan % 64)) }
    let st := st.setLane 0 (fun l => { l with ord := n.order.start })
    let cx := { Cx.at n.hdr n.body unit [c + 1] none with
      args := n.args, node := node, wg := idx, fn := n.fn, slice := n.slice, prio := n.prio, readyAge := n.readyAge
      admittedAt := s.clock, order := n.order }
    let i : Inst := ⟨c, c + 1, chan, true, chan, 0, false, 0, 0, 0, [], [], 0⟩
    { s.undefineBanks chan with
      strands := tset s.strands (c + 1) st, cxs := tset s.cxs c cx, insts := tset s.insts c i, nextId := s.nextId + 2
      nodes := tset s.nodes node { n with startedAt := n.startedAt.or (some s.clock) } }

end Sys2Proof.Machine
end

