-- ==== Sys2Proof/Machine/Kill.lean ====
section
/-! DEFINITION. Stopping contexts without a save: by FQACK KILL, by an error (MACHINE), or by a failing save
(R306, R318, R323, R379, R428). -/
namespace Sys2Proof.Machine

/-- Takes every command of a context, and of a copy node, off the engines without an end. -/
def State.dropCmds (s : State) (gone : Cmd → Bool) : State :=
  { s with dies := tmap s.dies (fun d =>
      let ids := (d.queue.filter gone).map Cmd.id
      { d with
        queue := d.queue.filter (fun c => !gone c)
        engines := tmap d.engines (fun e => if e.cmd.any ids.contains then { e with cmd := none } else e) }) }

/-- A record nobody waits for any more keeps its place in the fault queue (R323). -/
def Func.forget (f : Func) (gone : Nat → Bool) : Func :=
  { f with
    fqWaitOf := f.fqWaitOf.map (fun w => match w with | some (i, k) => if gone i then none else some (i, k) | none => none)
    fqPosted := f.fqPosted.filter (fun e => !gone e.2.1)
    replays := f.replays.filter (fun r => !gone r.strand) }

/-- What every thread of a context and its commands have written (R222). -/
def State.cxWrites (s : State) (c : Nat) (cx : Cx) : List (Nat × Path) :=
  let ls := s.strands.foldl (fun h e => if e.2.cx == c then e.2.lanes.foldl (fun h l => addWrites h l.ord.hist) h else h) []
  let bs := cx.bars.foldl (fun h b => addWrites h (b.carry ++ b.lcarry)) ls
  let ms := (s.core cx.core).mqueue.foldl (fun h m => if m.cx == c then addWrites h m.wids else h) (addWrites bs cx.mwids)
  addWrites ms (((tget s.insts c).map Inst.wids).getD [])

/-- What the engine commands among those of `mine` have written. -/
def State.cmdWrites (s : State) (mine : Cmd → Bool) : List (Nat × Path) :=
  s.dies.flatMap (fun d => (d.2.queue.filter mine).flatMap (fun q => q.wids.map (fun w => (w, Path.copy))))

/-- Adds writes to what a node's completion waits for and its successors see (R222). -/
def State.nodeWrote (s : State) (n : Nat) (ws : List (Nat × Path)) : State :=
  s.updNode n (fun x => { x with order := { x.order with hist := addWrites x.order.hist ws } })

/-- Stops a context without a save and returns everything it holds (R323, R59). -/
def State.killCx (s : State) (c : Nat) : State :=
  match s.cx c with
  | none => s
  | some cx =>
    let gone (i : Nat) : Bool := (s.strand i).any (fun st => st.cx == c)
    let held := (s.core cx.core).holder == some c
    let mine (q : Cmd) : Bool := q.cx == c && q.node.isNone
    let s := (s.nodeWrote cx.node (addWrites (s.cxWrites c cx) (s.cmdWrites mine))).dropCmds mine
    let s := { s with
      cores := tmap s.cores (fun e => { e with
        mqueue := e.mqueue.filter (fun m => m.cx != c), arrivals := e.arrivals.filter (fun i => !gone i) })
      units := tmap s.units (fun e => { e with arrivals := e.arrivals.filter (fun i => !gone i) })
      banks := tmap s.banks (fun e => { e with buf := e.buf.filter (fun b => b.inst != c) }) }
    let s := if held then s.endHolding cx.core else s
    let s := s.setFunc cx.fn (fun f => { f.forget gone with
      frames := match cx.frame with | some n => f.frames.erase n | none => f.frames
      saveAreas := match cx.saveSlot with | some n => f.saveAreas.erase n | none => f.saveAreas })
    s.dropCx c

/-- Stops every context of a node without a save; the node completes with a status (R306). -/
def State.killNode (s : State) (n status : Nat) : State :=
  let s := ((s.cxs.filter (fun e => e.2.node == n)).map (·.1)).foldl State.killCx s
  let mine (q : Cmd) : Bool := q.node == some n
  let s := (s.nodeWrote n (s.cmdWrites mine)).dropCmds mine
  s.updNode n (fun x => if x.st == .done then x else { x with st := .done, status := status, live := 0 })

/-- The record of an error of the walker or an engine (R319): context 4, unit 6. -/
def State.walkerFault (s : State) (f code detail : Nat) (addr : W64) : FaultRec where
  code := code
  async := true
  ctx := 4
  die := 80
  unit := 6
  slice := f
  addr := addr
  detail := BitVec.ofNat 32 detail
  cycle := BitVec.ofNat 32 (s.cycle 80)

/-- Puts an ASYNC record of the walker in a function's fault queue (R305). -/
def State.walkerRecord (s : State) (f code detail : Nat) (addr : W64) : State :=
  s.queueRecord f (s.walkerFault f code detail addr) none

/-- Stops a context with MACHINE: its record, and its node completes MACHINE (R318, R379). -/
def State.machineStop (s : State) (c : Nat) : State :=
  match s.cx c with
  | none => s
  | some cx =>
    let r : FaultRec := match cx.strands.head?.bind s.strand with
      | some st => s.mkFault st 0 0x3F (st.lane 0).pc 0 0 0 false
      | none => { s.walkerFault cx.fn 0x3F 0 0 with async := false }
    ((s.countError cx.slice cx.core .machineStop).queueRecord cx.fn r none).killNode cx.node 8

/-- Stops every context a condition names with MACHINE. -/
def State.machineStopAll (s : State) (p : Cx → Bool) : State :=
  ((s.cxs.filter (fun e => p e.2)).map (·.1)).foldl State.machineStop s

end Sys2Proof.Machine
end

