-- ==== Sys2Proof/Machine/Sys.lean ====
section
/-! DEFINITION. System registers (R13, R324, R325, R334, R340, R369, R390, R401, R403, R412, R423), the fault
queue and its acknowledgement (R323), and TLBINV and ATTRRESET (R181, R187). -/
namespace Sys2Proof.Machine

/-! ## Numbers and privilege (R324) -/

/-- Whether a number names a system register. -/
def sysKnown (n : Nat) : Bool :=
  decide (n ≤ 4) || (0x10 ≤ n && n ≤ 0x1C) || n == 0x20 || (0x110 ≤ n && n ≤ 0x124) || (0x128 ≤ n && n ≤ 0x12A) ||
  (0x130 ≤ n && n ≤ 0x135) || (0x140 ≤ n && n ≤ 0x142)

/-- Whether a register is written only by the PF. -/
def sysPf (n : Nat) : Bool := n == 0x20 || (0x110 ≤ n && n ≤ 0x124) || n == 0x140 || n == 0x141

/-- Whether a strand runs in a privileged context. -/
def State.privileged (s : State) (st : Strand) : Bool :=
  match s.cx st.cx with
  | none => false
  | some c =>
    let r := (s.func c.fn).reg 0x01C
    let base := bits r 47 16 * 65536
    st.ctx.wide && decide (base ≤ c.image.toNat) && decide (c.image.toNat < base + bits r 63 48 * 65536)

/-- The bits of a register a write sets and a read returns, where it is plain storage (R325, R369, R403). -/
def sysMask (n : Nat) : Nat :=
  match n with
  | 0x000 => 0xC1FFFFFFFFE00001
  | 0x003 | 0x012 => 0x0000FFFFFFFF0000
  | 0x004 => 0x00000000FFFF0FFF
  | 0x010 | 0x013 => 0x00000000FFFFFFFF
  | 0x011 => 0xFFFFFFFFFFFFFFFF
  | 0x014 => 0x0000FFFFFFFFFFC0
  | 0x015 | 0x016 => 0x000000000000FFFF
  | 0x019 => 0x0000FFFFFFFFFFF0
  | 0x01A => 0x0000FFFF0000FFFF
  | 0x01B => 0x0000FFFFFFFFE000
  | 0x01C => 0xFFFFFFFFFFFF0000
  | 0x129 => 0x80000000000003FF
  | 0x12A => 0xF00000003FF003FF
  | 0x130 | 0x131 | 0x135 => 0xFFFFFFFFFFFFFFE0
  | 0x132 => 7
  | _ => 0

/-! ## Reading (R13, R334) -/

/-- The channels or cores of a slice in ascending order (R369). -/
def State.cores_ (s : State) (slice : Nat) : List Nat := (List.range 1024).filter (fun c => s.coreSlice c == slice)

/-- The limits of a throttle stage (R424): GOVMAX and STAGFLOOR. -/
def govMax (stage : Nat) : Nat := if stage = 0 then 24 else 20
def stagFloor (stage : Nat) : Nat := if stage ≤ 2 then 0 else if stage = 3 then 64 else 255

/-- The value a read of register n by function f returns; WO fields read 0. -/
def State.sysRead (s : State) (f n : Nat) : Nat :=
  let m := s.mg
  let r := (s.func f).reg n
  match n with
  | 0x01A => r + (s.func f).sqHead % 65536 * 2 ^ 16
  | 0x017 => (s.func f).fqTail
  | 0x020 => m.leaseCyc
  | 0x120 => m.slcArg.toNat
  | 0x122 => (if m.slcBusy then 2 ^ 63 else 0) + m.slcOp * 256 + m.slcResult
  | 0x123 => m.hflBase.toNat
  | 0x124 => m.hflDropped * 2 ^ 48 + m.hflTail * 2 ^ 32 + m.hflHead * 2 ^ 16 + m.hflEntries
  | 0x128 => (s.func f).mapgen * 2 ^ 48 + (s.slice f).st * 2 ^ 38 + (if (s.slice f).prot then 2 ^ 37 else 0) +
      (s.cores_ f).length * 2 ^ 11 + (s.channels f).length
  | 0x129 =>
    let l := if bit r 63 then s.cores_ f else s.channels f
    r + (match l[r % 1024]? with | some v => 2 ^ 62 + v * 2 ^ 16 | none => 0)
  | 0x133 | 0x134 =>
    let g := (s.func f).streams.getD ((s.func f).reg 0x132) ⟨false, 0, 0, 0⟩
    if n == 0x133 then (if g.valid then 2 ^ 32 else 0) + g.sid.toNat else g.last.toNat
  | 0x141 => (if m.rstBusy then 2 ^ 63 else 0) + m.rstLevel * 256 + m.rstResult
  | 0x142 => m.power % 65536 * 2 ^ 48 + stagFloor m.stage * 2 ^ 32 + bankCap m.stage * 2 ^ 24 + govMax m.stage * 256 + m.stage
  | _ => if 0x110 ≤ n && n ≤ 0x11F then s.effBanks (n - 0x110) * 2 ^ 16 + tgetD m.banklim (n - 0x110) 8 else r

/-! ## TLBINV and ATTRRESET (R181, R187) -/

/-- Whether every access that a function's entries translated has been applied at its home: its own, and those of its
peers to its memory (R187, R403). -/
def State.drained (s : State) (f : Nat) : Bool := s.inflight.all (fun w => w.fn != f && w.owner != some f)

/-- Removes the TLB and walker-cache entries conditions name, everywhere. -/
def State.invalidate (s : State) (t : TlbEnt → Bool) (w : WalkEnt → Bool) : State :=
  { s with
    dies := tmap s.dies (fun d => { d with tlb := d.tlb.filter (fun e => !t e), wcache := d.wcache.filter (fun e => !w e) })
    cores := tmap s.cores (fun c => { c with tlb := c.tlb.filter (fun e => !t e) }) }

/-- TLBINV of the page that holds an address, with the walker entries above it; what the page's leaf names may be any
ATS result of the function. -/
def State.tlbinvPage (s : State) (f va : Nat) : State :=
  s.invalidate (fun e => e.covers f va || (e.fn == f && e.ats.isSome)) (fun e => e.fn == f && e.base == va / levelSize e.level)
def State.tlbinvAll (s : State) (f : Nat) : State := s.invalidate (fun e => e.fn == f) (fun e => e.fn == f)
def State.tlbinvWalk (s : State) (f : Nat) : State := s.invalidate (fun _ => false) (fun e => e.fn == f)

/-- The write of a function's oldest waiting fault record, once failed, is tried again (R323). -/
def State.fqRetry (s : State) (f : Nat) : State := s.setFunc f (fun x => { x with fqStuck := false })

/-- The effect of a TLBINV of value v (R187). -/
def State.tlbinv (s : State) (f v : Nat) : State :=
  (match bits v 63 60 with
   | 0 => s.tlbinvPage f (bits v 47 16 * 65536)
   | 1 => s.tlbinvAll f
   | _ => s.tlbinvWalk f).fqRetry f

/-- Zeroes a run of memory for every observer; earlier writes inside it are over. -/
def State.zeroRange (s : State) (a n : Nat) : State :=
  { s with mem := mclear s.mem a (a + n), applied := s.applied.filter (fun w => !w.overlaps a n) }

/-- Zeroes a run of memory whose poison marks go with it. -/
def State.wipeRange (s : State) (a n : Nat) : State :=
  { s.zeroRange a n with poison := s.poison.filter (fun p => !(decide (a ≤ 32 * p) && decide (32 * p < a + n))) }

/-- ATTRRESET of a granule (R181): zeroes it, clears its marks and unsets its attribute. -/
def State.attrReset (s : State) (g : Nat) : State :=
  let s := (s.zeroRange (g * 65536) 65536).setGran g (fun x => { x with attr := none, lost := false, dirty := true })
  { s with poison := s.poison.filter (fun p => p / 2048 != g) }

/-! ## Acknowledging a fault record (R323) -/

/-- The lane that waits for the acknowledgement of a record stops waiting for it. -/
def State.ackLane (s : State) (f idx i k : Nat) (g : Lane → Lane) : State :=
  let s := s.setFunc f (fun x => { x with fqPosted := tdel x.fqPosted idx })
  s.updStrand i (fun st => st.setLane k (fun l => g { l with posted := l.posted.erase idx }))

/-- Whether a replay is the one of a record of lane k of strand i. -/
def Replay.of (e : Replay) (i k : Nat) (r : FaultRec) : Bool := e.strand == i && e.lane == k && r.replay != 0 && e.pend.id == r.replay

/-- RETRY: the faulting instruction is performed again in the lane (R70), or fetched again (R20). -/
def State.ackRetry (s : State) (f idx : Nat) : State :=
  match tget (s.func f).fqPosted idx with
  | some (i, k, r) =>
    if !r.recov then s else
    let s := s.ackLane f idx i k id
    (s.setFunc f (fun x => { x with replays := x.replays.map (fun e => if e.of i k r then { e with go := true } else e) })).settle i
  | _ => s

/-- SKIP: the lane continues at RESUME without the instruction. -/
def State.ackSkip (s : State) (f idx : Nat) : State :=
  match tget (s.func f).fqPosted idx with
  | some (i, k, r) =>
    let s := s.ackLane f idx i k (fun l => if l.st == .fault then { l with pc := r.resume } else l)
    (s.setFunc f (fun x => { x with replays := x.replays.eraseP (fun e => e.of i k r) })).settle i
  | _ => s

/-- KILL: every context of the record's node stops; the node completes KILLED. -/
def State.ackKill (s : State) (f idx : Nat) : State :=
  match tget (s.func f).fqPosted idx with
  | some (i, _, _) =>
    let s := s.setFunc f (fun x => { x with fqPosted := tdel x.fqPosted idx })
    match (s.strand i).bind (fun st => s.cx st.cx) with
    | some c => s.killNode c.node 7
    | none => s
  | _ => s

/-! ## Reset requests (R411) -/

/-- Whether one reset, a level with its kind and target, contains another. -/
def rstContains (a b : Nat × Nat × Nat) : Bool :=
  let (al, _, at_) := a
  let (bl, bk, bt) := b
  let core : Option Nat := if bl == 1 || (bl == 0 && (bk == 2 || bk == 4)) then some bt else none
  a == b || decide (6 ≤ al && bl < al) ||
  (match al with
   | 1 => bl == 0 && core == some at_
   | 2 => bl == 0 && bk == 3 && bt / 64 == at_
   | 3 => (core.map (· / 16)) == some at_ || (bl == 0 && bk == 0 && bt / 16 == at_) || (bl == 0 && bk == 1 && bt / 4 == at_)
   | _ => false)

/-- Requests a reset: one contained in the reset in progress or in a queued one completes with it; it replaces
those it contains. -/
def Mgmt.request (m : Mgmt) (r : Nat × Nat × Nat) : Mgmt :=
  if m.rstRun.any (fun a => rstContains a r) || m.rstQueue.any (fun a => rstContains a r) then m
  else { m with rstQueue := m.rstQueue.filter (fun b => !rstContains r b) ++ [r] }

/-! ## Writing (R13, R325, R334) -/

/-- What a write to a system register does: it is done, it traps with a code and DETAIL, or it waits. -/
inductive SysOut where
  | done (s : State)
  | trap (code detail : Nat)
  | wait

/-- Whether a fault record of a function is in use (R325). -/
def Func.fqInUse (f : Func) : Bool := !f.fqWait.isEmpty || !f.fqPosted.isEmpty || f.fqTail != f.reg 0x016

/-- A write of plain storage under its access codes. -/
def State.sysStore (s : State) (f n v : Nat) : State :=
  let s := s.setFunc f (fun x => x.setReg n (v &&& sysMask n))
  if n == 0x000 || n == 0x014 || n == 0x016 then s.fqRetry f else s

/-- The effect of writing v to register n by function f, the privilege checks passed. -/
def State.sysWrite (s : State) (f n v : Nat) : SysOut :=
  let m := s.mg
  match n with
  | 0x001 =>
    if 3 ≤ bits v 63 60 then .trap 0x02 0
    else if !s.drained f then .wait
    else .done (s.tlbinv f v)
  | 0x002 =>
    let a := bits v 39 16 * 65536
    if s.chanSlice (chanOf a) != f then .trap 0x0B 0 else .done ((s.attrReset (granOf a)).fqRetry f)
  | 0x004 => if v % 4096 != 0 && bits v 31 16 == 0 then .trap 0x02 0 else .done (s.sysStore f n v)
  | 0x011 => if bits v 63 32 < bits v 31 0 then .trap 0x02 0 else .done (s.sysStore f n v)
  | 0x013 => if !(s.func f).saveAreas.isEmpty then .trap 0x20 0 else .done (s.sysStore f n v)
  | 0x015 => if (s.func f).fqInUse then .trap 0x20 0 else .done (s.sysStore f n v)
  | 0x018 =>
    match bits v 63 62 with
    | 0 => .done (s.ackRetry f (v % 65536))
    | 1 => .done (s.ackSkip f (v % 65536))
    | 2 => .done (s.ackKill f (v % 65536))
    | _ => .trap 0x02 0
  | 0x020 => if v % 2 ^ 20 < 1024 then .trap 0x02 0 else .done (s.setMg (fun m => { m with leaseCyc := v % 2 ^ 20 }))
  | 0x120 => .done (s.setMg (fun m => { m with slcArg := BitVec.ofNat 64 v }))
  | 0x121 =>
    if 8 ≤ bits v 63 60 || 65 ≤ bits v 38 32 then .trap 0x02 0
    else if m.slcBusy then .trap 0x20 0
    else .done (s.setMg (fun m => { m with slcBusy := true, slcOp := bits v 63 60, slcCmd := BitVec.ofNat 64 v, slcPend := none, slcPhase := false }))
  | 0x123 => .done (s.setMg (fun m => { m with hflBase := BitVec.ofNat 64 (v &&& 0x0000FFFFFFFFFFC0) }))
  | 0x124 => .done (s.setMg (fun m => { m with hflHead := bits v 31 16, hflEntries := v % 65536, hflDropped := 0 }))
  | 0x12A => if 6 ≤ bits v 63 60 then .trap 0x02 0 else .done (s.sysStore f n v)
  | 0x140 =>
    if 7 ≤ bits v 63 60 || (bits v 63 60 == 0 && 6 ≤ bits v 19 16) then .trap 0x02 0
    else if m.rstBusy then .trap 0x20 0
    else
      let level := bits v 63 60
      .done (s.setMg (fun m => { m with rstBusy := true, rstLevel := level }.request
        (level, if level == 0 then bits v 19 16 else 0, if level == 6 then 0 else bits v 10 0)))
  | _ =>
    if 0x110 ≤ n && n ≤ 0x11F then
      if v % 32 == 0 || 17 ≤ v % 32 then .trap 0x02 0
      else .done (s.setMg (fun m => { m with banklim := tset m.banklim (n - 0x110) (v % 32) }))
    else if sysMask n == 0 then .done s
    else .done (s.sysStore f n v)

/-- The state after a write whose traps nobody takes (R390). Nobody waits for the completion of a TLBINV that comes so:
it removes the entries at once, and the accesses they have translated go on (notes/assumptions/59.md). -/
def State.sysWriteQuiet (s : State) (f n v : Nat) : State :=
  match s.sysWrite f n v with
  | .done s => s
  | .trap _ _ => s
  | .wait => s.tlbinv f v

/-! ## Instructions (R334) -/

/-- The number a `sysrd` or `syswr` names. -/
def sysNo (f : Rrr) : Nat := f.a.toNat * 64 + f.b.toNat

/-- The issue form with the number check of step 2 of R40 (R324). -/
def sysHd (op : Nat) (f : Rrr) : Hd := let h := hdOf op (rrrWord op f); { h with ok := h.ok && sysKnown (sysNo f) }

/-- PERM with detail SYSREG. -/
def sysPerm (s : State) (x : Iss) : Act := .done { s := s.trapLanes x.i x.m 0x09 x.pc 4 4 }

/-- `sysrd`. -/
def sysrdBody (s : State) (x : Iss) : Act :=
  if !s.privileged x.st then sysPerm s x
  else .done { s := s.putStrand x.i (x.st.write64 x.m x.h.f.d.toNat (fun _ => BitVec.ofNat 64 (s.sysRead (s.fnOf x.st) (sysNo x.h.f))) none)
               dst := .reg x.h.f.d.toNat }

/-- `syswr`: waits for the context's earlier CORE accesses, then writes. -/
def syswrBody (s : State) (x : Iss) : Act :=
  let n := sysNo x.h.f
  let f := s.fnOf x.st
  if !s.privileged x.st || (sysPf n && f != 0) then sysPerm s x
  else if !s.workDone x.i 0 1 s.nextId then .stall .fence
  else
    match s.sysWrite f n (x.st.pair 0 x.h.f.d.toNat).toNat with
    | .done s => .done { s := s }
    | .trap code detail => .done { s := s.trapLanes x.i x.m code x.pc 4 detail }
    | .wait => .stall .fence

def execSysrd (f : Rrr) (s : State) : Res := .next (s.issue (sysHd 0xF2 f) sysrdBody)
def execSyswr (f : Rrr) (s : State) : Res := .next (s.issue (sysHd 0xF3 f) syswrBody)

/-! ## The same effects as steps of their own -/

/-- SYSREG_WRITE (R334): a register without a behaviour of its own is written. -/
def execSysregWrite (f num : Nat) (val : W64) (s : State) : Res :=
  .next (if sysKnown num && !(sysPf num && f != 0) then s.sysWriteQuiet f num val.toNat else s)
/-- BANKLIM_WRITE (R340): only the PF writes, and only 1 to 16. -/
def execBanklimWrite (f stack : Nat) (val : W64) (s : State) : Res :=
  .next (if f = 0 ∧ stack < 16 then s.sysWriteQuiet 0 (0x110 + stack) val.toNat else s)
/-- TLBINV_PAGE (R187). -/
def execTlbinvPage (f : Nat) (va : Va) (s : State) : Res :=
  .next (if s.drained f then (s.tlbinvPage f (va.toNat / 65536 * 65536)).fqRetry f else s)
/-- TLBINV_FUNCTION (R187). -/
def execTlbinvFunction (f : Nat) (s : State) : Res := .next (if s.drained f then (s.tlbinvAll f).fqRetry f else s)
/-- TLBINV_WALKER_CACHE (R187). -/
def execTlbinvWalkerCache (f : Nat) (s : State) : Res := .next (if s.drained f then (s.tlbinvWalk f).fqRetry f else s)
/-- ATTRRESET (R181). -/
def execAttrReset (f : Nat) (val : W64) (s : State) : Res := .next (s.sysWriteQuiet f 2 val.toNat)
/-- FQACK_RETRY (R323). -/
def execFqackRetry (f idx : Nat) (s : State) : Res := .next (s.ackRetry f idx)
/-- FQACK_SKIP (R323). -/
def execFqackSkip (f idx : Nat) (s : State) : Res := .next (s.ackSkip f idx)
/-- FQACK_KILL (R323). -/
def execFqackKill (f idx : Nat) (s : State) : Res := .next (s.ackKill f idx)

/-- Whether the page of a function's fault queue is an EIR page of its own slice (R385). -/
def State.fqPrivate (s : State) (f va : Nat) : Bool :=
  match s.walk 80 f va with
  | (_, .inr l) => !l.entry.host && l.entry.attr == 2 && s.chanSlice (chanOf l.entry.pa) == f
  | _ => false

/-- FAULT_QUEUE_WRITE (R323): the oldest waiting record of a function is written when the queue has room and
its page can be written; a write that fails is tried again once one of the registers of R323 is written. A protected function's record is redacted outside its own EIR pages (R385). -/
def execFaultQueueWrite (f : Nat) (s : State) : Res :=
  .next (
    let x := s.func f
    let n := x.reg 0x015
    match x.fqWait, x.fqWaitOf with
    | r :: rs, who :: ws =>
      if x.fqStuck || n < 2 || (x.fqTail + 1) % n == x.reg 0x016 then s
      else
        let va := x.reg 0x014 + 64 * x.fqTail
        match s.fnWrite 80 f va (r.bytes ((s.slice f).prot && !s.fqPrivate f (x.reg 0x014))) with
        | (s, .ok _) =>
          let idx := x.fqTail
          let s := s.setFunc f (fun x => { x with
            fqWait := rs, fqWaitOf := ws, fqTail := (idx + 1) % n
            fqPosted := match who with | some (i, k) => tset x.fqPosted idx (i, k, r) | none => x.fqPosted })
          let s : State := match who with
            | some (i, k) => s.updStrand i (fun st => st.setLane k (fun l => { l with posted := l.posted ++ [idx] }))
            | none => s
          s.cause f 1
        | (s, .stop _ _) => s.setFunc f (fun x => { x with fqStuck := true })
        | (s, .wait) => s
    | _, _ => s)

/-! ## The register window (R390, R391) -/

/-- The virtual functions the PF offers, and whether a function is enumerated: none before a start is READY, and only the
PF in recovery mode (R388, R418). -/
def State.totalVfs (s : State) : Nat := if s.mg.boot == 1 then 64 else 0
def State.enumerated (s : State) (f : Nat) : Bool := s.mg.boot != 0 && decide (f ≤ s.totalVfs)

/-- Whether an MMIO request to a function's BAR0 is performed. -/
def State.mmioOk (s : State) (f : Nat) (tbit : Bool) : Bool :=
  s.enumerated f &&
  match (s.func f).ifState with
  | 0 => true
  | 1 | 2 => tbit
  | _ => false

/-- Counts an MMIO request that was not performed. -/
def State.mmioRefused (s : State) (f : Nat) (m : OutMsg) : State :=
  (s.countSlice f .refusedMmio).send m

/-- What a write at an offset of BAR0 does. -/
def State.mmioWrite (s : State) (f off : Nat) (v : Nat) : State :=
  if off == 0x1000 then s.setFunc f (fun x => x.setReg 0x01A ((v % 65536) * 2 ^ 32 + x.reg 0x01A % 65536))
  else if off == 0x1008 then s.setFunc f (fun x => { x with intcause := x.intcause &&& ~~~(BitVec.ofNat 4 v) })
  else if off % 8 == 0 && decide (off < 0x1000) && sysKnown (off / 8) && !(sysPf (off / 8) && f != 0) then s.sysWriteQuiet f (off / 8) v
  else s

/-- MMIO_WRITE (R390): acts as `syswr`, or is dropped. -/
def execMmioWrite (f off : Nat) (val : W64) (tbit : Bool) (s : State) : Res :=
  .next (if s.mmioOk f tbit then s.mmioWrite f off val.toNat else s.mmioRefused f .mmioDropped)

/-- MMIO_READ (R390): acts as `sysrd`, or completes Unsupported Request. -/
def execMmioRead (f off : Nat) (tbit : Bool) (s : State) : Res :=
  .next (if !s.mmioOk f tbit then s.mmioRefused f .mmioUr
    else
      let v := if off == 0x1008 then (s.func f).intcause.toNat
        else if off % 8 == 0 && decide (off < 0x1000) && sysKnown (off / 8) && !(sysPf (off / 8) && f != 0) then s.sysRead f (off / 8)
        else 0
      s.send (.mmioData (BitVec.ofNat 64 v)))

/-- DOORBELL (R390): sets SQCFG.TAIL. -/
def execDoorbell (f : Nat) (val : Word) (tbit : Bool) (s : State) : Res :=
  .next (if s.mmioOk f tbit then s.mmioWrite f 0x1000 val.toNat else s.mmioRefused f .mmioDropped)

/-- INTCAUSE_CLEAR (R390): ones clear bits. -/
def execIntcauseClear (f : Nat) (val : Word) (tbit : Bool) (s : State) : Res :=
  .next (if s.mmioOk f tbit then s.mmioWrite f 0x1008 val.toNat else s.mmioRefused f .mmioDropped)

end Sys2Proof.Machine
end

