-- ==== Sys2Proof/Machine/Graph.lean ====
section
/-! DEFINITION. Node records, kernel headers and group tables as the walker reads and validates them (R50 to
R52, R55, R305 to R307, R312 to R314, R367). -/
namespace Sys2Proof.Machine

/-! ## The walker's reads -/

/-- A piece of the walker's work: it changes the state, and may have to wait for the host. -/
abbrev Wk := OptionT (StateM State)

/-- Runs a piece of work; while it must wait, only what it has asked the host for remains. -/
def State.wk (s : State) (m : Wk Unit) : State :=
  match m.run.run s with
  | (some _, t) => t
  | (none, t) => s.takeWalks t

/-- Reads n bytes of a function's memory, or gives the failure. -/
def wkRead (f va n : Nat) : Wk (Except Stop (List Byte)) := do
  match (← get).fnRead 80 f va n with
  | (s, .ok bs) => set s; pure (.ok bs)
  | (s, .stop x _) => set s; pure (.error x)
  | (s, .wait) => set s; failure

/-- Writes bytes to a function's memory: none, or the failure. -/
def wkWrite (f va : Nat) (bs : List Byte) : Wk (Option Stop) := do
  match (← get).fnWrite 80 f va bs with
  | (s, .ok _) => set s; pure none
  | (s, .stop x _) => set s; pure (some x)
  | (s, .wait) => set s; failure

/-- Puts an ASYNC record of the walker in the fault queue. -/
def wkRecord (f code detail : Nat) (addr : W64) : Wk Unit := modify (fun s => s.walkerRecord f code detail addr)

/-- The record of an access of the walker that failed, with its DETAIL (R305, R320). -/
def wkStop (f : Nat) (x : Stop) (addr : W64) : Wk Unit := wkRecord f x.code x.detail addr

/-- Validation: a failing check ends it with a STATUS. -/
abbrev Vk := ExceptT Nat Wk

/-- A read of validation; a failure ends it with XLATE (R306). -/
def vkRead (f va n : Nat) : Vk (List Byte) := do
  let r ← ExceptT.lift (wkRead f va n)
  match r with
  | .ok bs => pure bs
  | .error _ => throw 4

/-- Ends validation with a status unless a condition holds. -/
def vkNeed (ok : Bool) (status : Nat) : Vk Unit := if ok then pure () else throw status

/-! ## Node records (R55) -/

/-- A pointer in space 0x0 aligned to `al`; its upper bits are zero (R173). -/
def space0 (v al : Nat) : Bool := decide (v < 2 ^ 48) && v % al == 0

/-- Whether a node record keeps the limits, the res0 rules and the pointer rules of R55. -/
def recordOk (b : List Byte) : Bool :=
  let kind := leAt b 0 1
  let k0 := kind == 0
  let gcount := leAt b 2 2; let nwg := leAt b 4 4; let body := leAt b 8 8; let gtab := leAt b 24 8
  let ops := leAt b 32 8; let opcnt := leAt b 40 2; let succcnt := leAt b 42 2; let succ := leAt b 48 8
  decide (kind ≤ 5) && decide (leAt b 1 1 < 8) && leAt b 60 4 == 0 && decide (nwg < 2 ^ 24) &&
  (k0 || kind == 2 || nwg == 0) && (!k0 || nwg != 0) &&
  (k0 || (gcount == 0 && opcnt == 0 && leAt b 56 4 == 0)) && decide (gcount ≤ 256) && decide (opcnt ≤ 64) &&
  (k0 || kind == 2 || kind == 4 || leAt b 16 8 == 0) &&
  ((gtab == 0) == (gcount == 0)) && space0 gtab 16 && ((ops == 0) == (opcnt == 0)) && space0 ops 8 &&
  ((succ == 0) == (succcnt == 0)) && space0 succ 8 &&
  (if kind == 5 then body == 0 else space0 body ([128, 32, 128, 64, 8].getD kind 1))

/-- A node as its record describes it. -/
def Node.of (b : List Byte) (rec : W64) (f : Nat) : Node where
  record := rec
  fn := f
  slice := f
  kind := leAt b 0 1 % 16
  prio := leAt b 1 1 % 8
  nwg := leAt b 4 3
  body := BitVec.ofNat 64 (leAt b 8 8)
  args := BitVec.ofNat 64 (leAt b 16 8)
  succ := BitVec.ofNat 64 (leAt b 48 8)
  succCnt := leAt b 42 2
  stagger := leAt b 56 2
  phase := leAt b 58 2
  status := 0
  st := .ready
  hdr := {}
  groups := []
  nextWg := 0
  live := 0
  completed := []
  startedAt := none
  readyAge := 0
  due := none
  held := false
  gangPre := false
  launch := none
  order := Ord.empty
  dieStart := []
  errAt := 0
  coll := none

/-! ## Kernel headers (R50 to R52) -/

/-- One bit of CRC-32 (IEEE 802.3, reflected). -/
def crcBit (c : Nat) : Nat := if c % 2 = 1 then (c / 2) ^^^ 0xEDB88320 else c / 2

/-- CRC-32 of bytes. -/
def crc32 (bs : List Byte) : Nat :=
  (bs.foldl (fun c b => crcBit (crcBit (crcBit (crcBit (crcBit (crcBit (crcBit (crcBit (c ^^^ b.toNat))))))))) 0xFFFFFFFF) ^^^ 0xFFFFFFFF

/-- The fields of a header, its safe-point table excepted. -/
def Header.of (b : List Byte) : Header where
  trap := bit (leAt b 3 1) 3
  comb := bit (leAt b 3 1) 2
  lead := bit (leAt b 3 1) 1
  limbs := bit (leAt b 3 1) 0
  laneEnt := leAt b 4 4
  leadEnt := leAt b 8 4
  combEnt := leAt b 12 4
  codeSize := leAt b 16 4
  trapEnt := leAt b 20 4
  safeTab := leAt b 24 4
  safeCnt := leAt b 28 2
  sram := leAt b 32 4
  wgSize := leAt b 36 2
  vregs := leAt b 38 1
  gmax := leAt b 39 1
  barriers := leAt b 40 2
  forage := leAt b 42 1
  groups := leAt b 43 1
  gkinds := leAt b 44 1

/-- Whether a header keeps the limits and rules of R50 and R52, its CHECK excepted. A NAME needs one NUL byte and no more
(notes/assumptions/62.md). -/
def headerOk (b : List Byte) : Bool :=
  let h := Header.of b
  let ro := leAt b 56 4
  let entry (e : Nat) : Bool := e == 0 || (e % 2 == 0 && decide (128 ≤ e) && decide (e < 128 + h.codeSize))
  leAt b 0 2 == 0x1CE1 && leAt b 2 1 == 1 && decide (leAt b 3 1 < 16) && leAt b 30 2 == 0 && leAt b 45 3 == 0 &&
  (b.drop 100).all (· == 0) && ((b.drop 64).take 32).any (· == 0) &&
  decide (h.safeCnt ≤ 4096) && h.safeTab % 4 == 0 && h.sram % 256 == 0 && decide (h.sram ≤ 4194304) &&
  (if h.comb then h.wgSize == 0 else decide (1 ≤ h.wgSize) && decide (h.wgSize ≤ 2048)) &&
  decide (1 ≤ h.vregs) && decide (h.vregs ≤ 56) && decide (h.gmax ≤ h.vregs) && decide (h.barriers ≤ 512) &&
  decide (h.forage ≤ 128) && decide (h.groups ≤ 4) && decide (h.gkinds < 4 ^ h.groups) &&
  leAt b 48 4 % 8 == 0 && ro % 8 == 0 &&
  entry h.laneEnt && entry h.leadEnt && entry h.combEnt && entry h.trapEnt &&
  ((h.laneEnt != 0) == !h.comb) && ((h.combEnt != 0) == h.comb) && ((h.leadEnt != 0) == h.lead) && !(h.lead && h.comb) &&
  ((h.trapEnt != 0) == h.trap) && ((h.safeTab != 0) == (h.safeCnt != 0)) &&
  (h.safeCnt == 0 || (decide (ro ≤ h.safeTab) && decide (h.safeTab + 12 * h.safeCnt ≤ ro + leAt b 60 4)))

/-- The length of the image a header heads (R50). -/
def imageLen (b : List Byte) : Nat :=
  max (max (128 + leAt b 16 4) (leAt b 56 4 + leAt b 60 4)) (leAt b 48 4 + leAt b 52 4)

/-- Reads and checks the kernel header of a kernel or comb node (R52, R306, R337, R367). -/
def vkHeader (s : State) (n : Node) : Vk Header := do
  let b ← vkRead n.fn n.body.toNat 128
  let h := Header.of b
  vkNeed (headerOk b && h.comb == (n.kind == 2)) 2
  vkNeed (n.kind != 0 || decide (h.barriers ≤ (s.slice n.slice).barq)) 2
  vkNeed (n.kind != 2 || (h.sram == 0 && h.barriers == 0 && h.forage == 0 && h.groups == 0 && !h.limbs)) 2
  let img ← vkRead n.fn n.body.toNat (imageLen b)
  vkNeed (crc32 (img.take 96 ++ [0, 0, 0, 0] ++ img.drop 100) == leAt b 96 4) 2
  let at_ (i : Nat) : Nat := leAt img i 4
  pure { h with safe := (List.range h.safeCnt).map (fun i =>
    (at_ (h.safeTab + 12 * i), at_ (h.safeTab + 12 * i + 4), at_ (h.safeTab + 12 * i + 8))) }

/-! ## Group tables (R312) -/

/-- The entries that hold a workgroup, ascending: its slots (R312). -/
def slotsOf (gs : List Group) (w : Nat) : List Nat := (List.range gs.length).filter (fun i => ((gs[i]?).map (fun g => g.members.contains w)).getD false)

/-- Whether the members of an entry are strictly ascending and below NWG. -/
def ascending (n : Nat) : List Nat → Bool
  | [] => true
  | [a] => decide (a < n)
  | a :: b :: l => decide (a < b) && ascending n (b :: l)

/-- Whether one entry keeps the table of R312, its members excepted. -/
def groupOk (e : List Byte) (nwg chans : Nat) : Bool :=
  let kind := leAt e 0 1
  let cnt := leAt e 4 4
  let memb := leAt e 8 8
  decide (kind < 4) && (if kind == 3 then decide (leAt e 1 3 < chans) else leAt e 1 3 == 0) && decide (1 ≤ cnt) && decide (cnt ≤ nwg) &&
  (!(kind == 1 || kind == 2) || decide (cnt ≤ 1024)) && space0 memb 4 && (memb != 0 || cnt == nwg)

/-- Reads the entries of a group table. -/
def vkGroups (n : Node) (chans : Nat) : List (List Byte) → Vk (List Group)
  | [] => pure []
  | e :: es => do
    let cnt := leAt e 4 4
    let memb := leAt e 8 8
    vkNeed (groupOk e n.nwg chans) 3
    let ms ← if memb == 0 then pure (List.range n.nwg) else do
      let b ← vkRead n.fn memb (4 * cnt)
      pure ((List.range cnt).map (fun i => leAt b (4 * i) 4))
    vkNeed (ascending n.nwg ms) 3
    let gs ← vkGroups n chans es
    pure ({ kind := leAt e 0 1, chan := leAt e 1 3, count := cnt, members := ms, gen := 0, arrived := [], carry := [], next := [] } :: gs)

/-- Whether every workgroup fits the slots its header declares (R312). -/
def slotsOk (h : Header) (gs : List Group) (nwg : Nat) : Bool :=
  gs.isEmpty || (List.range nwg).all (fun w =>
    let sl := slotsOf gs w
    decide (sl.length ≤ h.groups) &&
    (List.range sl.length).all (fun j => (((sl[j]?).bind (fun e => gs[e]?)).map Group.kind) == some (h.gkinds / 4 ^ j % 4)))

/-- The workgroups admitted with workgroup w: the union of the GANG entries that tie it to others (R313). -/
def gangClose (gs : List Group) : Nat → List Nat → List Nat
  | 0, ws => ws
  | k + 1, ws =>
    let more := (gs.filter (fun g => g.kind == 2 && g.members.any ws.contains)).flatMap Group.members
    gangClose gs k ((ws ++ more).eraseDups)

def Node.gangOf (n : Node) (w : Nat) : List Nat := (gangClose n.groups n.groups.length [w]).mergeSort

/-- How many workgroups of a header an empty core of a slice holds (R56, R367). -/
def coreFits (h : Header) (barq : Nat) : Nat :=
  let per (cap use : Nat) : Nat := if use = 0 then 64 else cap / use
  let w := (h.wgSize + 31) / 32
  min (min (min (64 / w) (per 4096 (w * h.gmax))) (min (per 4194304 h.sram) (per (min 512 barq) h.barriers)))
    (min (per 128 h.forage) (if h.lead then 8 else 64))

/-! ## Validation (R306) -/

/-- Validates a node record: the node with its header and groups, or the STATUS of the first failing check. -/
def vkNode (s : State) (n : Node) (b : List Byte) : Vk Node := do
  vkNeed (recordOk b) 1
  if n.kind == 0 || n.kind == 2 then
    if n.kind == 2 then vkNeed (decide (1 ≤ n.nwg) && decide (n.nwg ≤ (s.channels n.slice).length)) 1
    let h ← vkHeader s n
    let n := { n with hdr := h }
    if n.kind == 2 || leAt b 2 2 == 0 then pure n
    else do
      let t ← vkRead n.fn (leAt b 24 8) (16 * leAt b 2 2)
      let gs ← vkGroups n (bits ((s.func n.fn).reg 0x135) 63 48) ((List.range (leAt b 2 2)).map (fun i => (t.drop (16 * i)).take 16))
      vkNeed (slotsOk h gs n.nwg) 3
      let n := { n with groups := gs }
      let cap := (s.cores_ n.slice).length * coreFits h (s.slice n.slice).barq
      vkNeed (gs.all (fun g => g.kind != 2 || decide ((n.gangOf (g.members.headD 0)).length ≤ cap))) 5
      pure n
  else if n.kind == 1 || n.kind == 3 then do
    let _ ← vkRead n.fn n.body.toNat (if n.kind == 1 then 32 else 64)
    pure n
  else pure n

/-! ## Readiness (R305 to R307) -/

/-- How a node becomes ready. -/
structure Came where
  root : Bool := false
  skip : Bool := false
  pmax : Nat := 7
  launch : Option Nat := none
  order : Ord := Ord.empty

/-- A host-signal node's write and interrupt (R307, R308): whether its address translates. -/
def wkSignal (n : Node) : Wk Bool := do
  match (← get).translate none 80 n.fn n.body.toNat { w := true } false with
  | (s, .wait) => set s; failure
  | (s, .stop _) => set s; pure false
  | (s, .dram a) => set (sig s a .core); pure true
  | (s, .host a) => set (sig s a .host); pure true
where
  sig (s : State) (a : Nat) (p : Path) : State :=
    let w : Wr := {
      id := s.nextId, strand := 0, lane := 0, cx := 0, fn := n.fn, path := p, die := 80, loc := a, op := .store
      data := toLE 8 n.args.toNat, strong := true, carry := onPaths n.order.hist 0x21, vis := [], all := false, cmd := none
      wait := 0x21, pc := 0, ptr := n.body }
    ({ s with nextId := s.nextId + 1 }.applyWrite w).cause n.fn 0

/-- Adds a node to the table. -/
def wkAdd (n : Node) : Wk Nat := do
  let s ← get
  let id := s.nextId
  set { s with nodes := tset s.nodes id { n with readyAge := id }, nextId := id + 1 }
  pure id

/-- A node becomes ready: its record is read and validated, and it enters the walker's intake, or it completes
at once with a status. Its number, unless its record cannot be read. -/
def wkReady (f : Nat) (p : W64) (c : Came) : Wk (Option Nat) := do
  match ← wkRead f p.toNat 64 with
  | .error x => wkStop f x p; pure none
  | .ok b =>
    let n := { Node.of b p f with order := c.order, launch := c.launch }
    let n := { n with prio := min n.prio c.pmax }
    if c.root && leAt b 44 4 != 0 then some <$> wkAdd { n with st := .done, status := 1 }
    else if c.skip then do
      if n.kind == 4 then let _ ← wkSignal n
      some <$> wkAdd { n with st := .done, status := 6 }
    else do
      match ← (vkNode (← get) n b).run with
      | .error st => some <$> wkAdd { n with st := .done, status := st }
      | .ok n =>
        let id ← wkAdd n
        modify (fun s => { s with intake := s.intake ++ [id] })
        pure (some id)

/-- A submission names roots (R305): the nodes that came of it. -/
def wkSubmit (f : Nat) (c : Came) : List W64 → Wk (List Nat)
  | [] => pure []
  | p :: ps => do
    let one ← if space0 p.toNat 64 then wkReady f p { c with root := true } else do wkRecord f 0x02 7 p; pure none
    let rest ← wkSubmit f c ps
    pure (one.toList ++ rest)

/-- Reads an array of record pointers whole. -/
def wkRoots (f va n : Nat) : Wk (Except Stop (List W64)) := do
  match ← wkRead f va (8 * n) with
  | .error e => pure (.error e)
  | .ok b => pure (.ok ((List.range n).map (fun i => BitVec.ofNat 64 (leAt b (8 * i) 8))))

end Sys2Proof.Machine
end

