-- ==== Sys2Proof/Machine/Area.lean ====
section
/-! DEFINITION. What the walker reads in the save area of a saved context before it gives it a core: the register
records it holds and whether its matrix image holds the engine (R103, R302, R329 to R331). -/
namespace Sys2Proof.Machine

/-- The register records from register r on: the registers, and the first that is invalid (R103, R104). -/
def restoreRegs : Nat → Nat → List Byte → List VReg × Option Nat
  | 0, _, _ => ([], none)
  | n + 1, r, b =>
    match (b.headD 3).toNat with
    | 0 =>
      let bad := leAt b 5 4 != 0
      let (l, e) := restoreRegs n (r + 1) (b.drop 9)
      (.u (BitVec.ofNat 32 (if bad then 0 else leAt b 1 4)) :: l, if bad then some r else e)
    | 1 => let (l, e) := restoreRegs n (r + 1) (b.drop 9); (.a (BitVec.ofNat 32 (leAt b 1 4)) (BitVec.ofNat 32 (leAt b 5 4)) :: l, e)
    | 2 =>
      let (l, e) := restoreRegs n (r + 1) (b.drop 129)
      (.g ((List.range 32).map (fun k => BitVec.ofNat 32 (leAt b (1 + 4 * k) 4))) :: l, e)
    | _ => (List.replicate (n + 1) (.u 0), some r)

/-- Bytes of a context's save area as a restore on a die would read them; none of them where it could not. -/
def State.areaPeek (s : State) (die : Nat) (cx : Cx) (off n : Nat) : List Byte :=
  match (s.fnRead die cx.fn (cx.area + off) n).2 with
  | .ok b => b
  | _ => []

/-- The general blocks that the G records of the warp sections from an offset on need beyond GMAX per warp, whose
sections take `total` bytes. -/
def State.recordBlocks (s : State) (die : Nat) (cx : Cx) (total : Nat) : List Strand → Nat → Nat
  | [], _ => 0
  | st :: sts, off =>
    let sec := s.areaPeek die cx off (min (1552 + 129 * cx.hdr.vregs) (total - off))
    let live := BitVec.ofNat 32 (leAt sec 4 4) &&& st.laneMask (fun l => l.st != .never)
    let need := ((restoreRegs cx.hdr.vregs 0 (sec.drop 1552)).1.filter VReg.isG).length - cx.hdr.gmax
    (if live = 0 then 0 else need) + s.recordBlocks die cx total sts (off + leAt sec 12 4)

/-- The shared blocks a restore of a context needs beyond GMAX per warp (R331). -/
def State.gneed (s : State) (die : Nat) (cx : Cx) : Nat :=
  let warps := (cx.strands.filterMap s.strand).filter (fun st => st.ctx == .L)
  s.recordBlocks die cx (leAt (s.areaPeek die cx 60 4) 0 4) warps (leAt (s.areaPeek die cx 32 4) 0 4)

/-- Whether the matrix image in a context's save area holds the engine (R302). -/
def State.imageHolds (s : State) (die : Nat) (cx : Cx) : Bool :=
  let off := leAt (s.areaPeek die cx 52 4) 0 4
  off != 0 && bit (leAt (s.areaPeek die cx off 1) 0 1) 0

end Sys2Proof.Machine
end

