-- ==== Sys2Proof/Machine/Walk.lean ====
section
/-! DEFINITION. The graph walker (R305 to R317, R332, R333): submission, the ready pool and dispatch, admission
and completion of workgroups, gangs, completion of nodes, remote launch, `node.spawn` and `grp`. -/
namespace Sys2Proof.Machine

/-! ## Submission (R305, R309, R325, R332) -/

/-- Whether a function's intake accepts a submission: it is empty (R309). -/
def State.intakeFree (s : State) (f : Nat) : Bool := s.intake.all (fun n => ((tget s.nodes n).map Node.fn) != some f)

/-- The piece of work of a spawn: the root array is read whole, then its roots are submitted (R332). The
answer is what sD receives. -/
def wkSpawn (f va n : Nat) (o : Ord) : Wk Nat := do
  match ← wkRoots f va n with
  | .error _ => pure 2
  | .ok ps => let _ ← wkSubmit f { order := o } ps; pure 0

/-- `node.spawn` (R332). The writes of the lead thread's history reach their homes first, so that the walker, which reads
there, sees them (R221); while it waits for the host, what the walker has asked for stands. -/
def nodeSpawnBody (s : State) (x : Iss) : Act :=
  let p := (x.st.pair 0 x.h.f.a.toNat).toNat
  let n := (x.st.src 0 x.h.f.b).toNat % 65536
  let f := s.fnOf x.st
  let put (s : State) (v : Nat) : Act :=
    .done { s := s.updStrand x.i (fun st => st.write32 x.m x.h.f.d.toNat (fun _ => BitVec.ofNat 32 v) none), dst := .reg x.h.f.d.toNat }
  if bits p 63 60 != 0 || p % 8 != 0 || n == 0 || 4096 < n then put s 1
  else if !s.intakeFree f then .stall .intake
  else if s.unapplied (fun id => (x.st.lane 0).ord.hist.any (·.1 == id)) then .stall .fence
  else
    match (wkSpawn f p n { Ord.empty with hist := (x.st.lane 0).ord.hist }).run.run s with
    | (some v, s) => put s v
    | (none, t) => .hold (s.takeWalks t) .fetch

def execNodeSpawn (f : Rrr) (s : State) : Res := .next (s.issue (hdOf 0xF0 (rrrWord 0xF0 f)) nodeSpawnBody)

/-- SUBMISSION_RING_READ (R325): the walker takes the next entry of a function's ring. -/
def execSubmissionRingRead (f : Nat) (s : State) : Res :=
  .next (
    let x := s.func f
    let n := x.reg 0x01A % 65536
    if n = 0 || x.sqHead == bits (x.reg 0x01A) 47 32 || !s.fnRuns f || !s.intakeFree f then s
    else
      let at_ := x.reg 0x019 + 16 * x.sqHead
      let skip : Wk Unit := modify (fun s => s.setFunc f (fun x => { x with sqHead := (x.sqHead + 1) % n }))
      s.wk (do
        match ← wkRead f at_ 16 with
        | .error e => wkStop f e (BitVec.ofNat 64 at_); skip
        | .ok b =>
          let p := leAt b 0 8
          let k := leAt b 8 2
          if bits p 63 60 != 0 || p % 8 != 0 || k == 0 || 4096 < k || leAt b 10 6 != 0 then do wkRecord f 0x02 7 0; skip
          else do
            match ← wkRoots f p k with
            | .error e => wkStop f e (BitVec.ofNat 64 p)
            | .ok ps => let _ ← wkSubmit f {} ps
            skip))

/-- Records when a gang's first member became due (R314). -/
def State.setDue (s : State) (node : Nat) : State :=
  s.updNode node (fun n =>
    if decide (n.nextWg < n.nwg) && n.groups.any (fun g => g.kind == 2 && g.members.contains n.nextWg) then
      { n with due := n.due.or (some s.clock), gangCfg := if n.due.isSome then n.gangCfg else (s.func n.fn).reg 0x011 }
    else { n with due := none, held := false, gangPre := false })

/-- A function's oldest node in the intake enters the pool when the pool and the slice's quota have room (R309). -/
def State.intakeDrain (s : State) (f : Nat) : State :=
  let pool := s.nodes.filter (fun e => e.2.st == .pool)
  match s.intake.find? (fun n => ((tget s.nodes n).map Node.fn) == some f) with
  | none => s
  | some n =>
    if decide (65536 ≤ pool.length) || decide ((s.slice f).rpq ≤ (pool.filter (fun e => e.2.fn == f)).length) then s
    else
      let s := { (s.updNode n (fun x => { x with st := .pool })).setDue n with intake := s.intake.filter (· != n) }
      if s.intakeFree f then s.unstall .intake (fun t => s.fnOf t == f) else s

/-! ## What a core can grant (R56, R100, R188, R191, R260, R367) -/

/-- The resident workgroups of a core. -/
def State.residents (s : State) (core : Nat) : List Cx := (s.cxs.map (·.2)).filter (fun c => c.core == core && c.resident)

def Header.warps (h : Header) : Nat := (h.wgSize + 31) / 32

/-- Whether a core can grant everything a header asks for but SRAM and a frame; `more` shared blocks on top. -/
def State.coreGrants (s : State) (core slice : Nat) (h : Header) (more : Nat := 0) (own : Nat := 0) : Bool :=
  let rs := s.residents core
  let sum (g : Header → Nat) : Nat := (rs.map (fun c => g c.hdr)).sum
  s.coreOpen slice core && !(s.core core).outOfService && !s.coreReset core && !s.keptFor core own && decide (core < 1024) &&
  decide (sum Header.warps + h.warps ≤ 64) && decide (s.poolUse core + h.warps * h.gmax + more ≤ 4096) &&
  decide (sum Header.barriers + h.barriers ≤ min 512 (s.slice slice).barq) && decide (sum Header.forage + h.forage ≤ 128) &&
  (!h.lead || decide ((rs.filter (fun c => c.hdr.lead)).length < 8))

/-- Whether an allotment of n bytes at an offset is free on a core (R188). -/
def State.sramFree (s : State) (core base n : Nat) : Bool :=
  base % 256 == 0 && decide (base + n ≤ 2 ^ 22) && (s.residents core).all (fun c => !meets base n c.sramBase c.hdr.sram)

/-- The lowest offset at which a core can place n bytes. -/
def State.sramFit (s : State) (core n : Nat) : Option Nat :=
  (((0 :: (s.residents core).map (fun c => (c.sramBase + c.hdr.sram + 255) / 256 * 256)).mergeSort)).find? (fun b => s.sramFree core b n)

/-- The frame a new workgroup of a function takes (R191): the lowest free number (notes/assumptions/58.md), no frame where
frames are off, and none where no frame is free. -/
def State.frameFor (s : State) (f : Nat) : Option (Option Nat) :=
  let r := (s.func f).reg 0x004
  if r % 4096 = 0 then some none
  else ((List.range (bits r 31 16)).find? (fun n => !(s.func f).frames.contains n)).map some

/-- The lowest core of a slice and offset that can take a workgroup. -/
def State.place? (s : State) (slice : Nat) (h : Header) : Option (Nat × Nat) :=
  (s.cores_ slice).findSome? (fun c => if s.coreGrants c slice h then (s.sramFit c h.sram).map (fun b => (c, b)) else none)

/-! ## Admission (R56, R310, R313) -/

/-- The lanes of warp w of a workgroup at its start (R57, R58). -/
def startLanes (h : Header) (image : W64) (o : Ord) (w : Nat) : List Lane :=
  (List.range 32).map (fun k =>
    if 32 * w + k < h.wgSize then { Lane.at (BitVec.ofNat 48 (image.toNat + h.laneEnt)) with ord := o.start } else Lane.never)

/-- Admits workgroup `wg` of a node at an allotment of a core. -/
def State.admitWg (s : State) (node : Nat) (n : Node) (wg core base : Nat) : Option State :=
  if !s.coreGrants core n.slice n.hdr || !s.sramFree core base n.hdr.sram then none
  else
    match s.frameFor n.fn with
    | none => none
    | some frame =>
      let c := s.nextId
      let nw := n.hdr.warps
      let warp (w : Nat) : Strand :=
        let st := Strand.at .L c 0 32
        { st with
          wid := w, lanes := startLanes n.hdr n.body n.order w
          vregs := (st.vregs.set 0 (.u (n.args.setWidth 32))).set 1 (.u ((n.args >>> (32 : Nat)).setWidth 32)) }
      let lead : Strand :=
        let st := Strand.at .D c (BitVec.ofNat 48 (n.body.toNat + n.hdr.leadEnt)) 1
        { st.setLane 0 (fun l => { l with ord := n.order.start }) with sregs := st.sregs.set 0 n.args }
      let ws := (List.range nw).map (fun w => (c + 1 + w, warp w))
      let all := if n.hdr.lead then ws ++ [(c + 1 + nw, lead)] else ws
      let r := s.func n.fn
      let cx := { Cx.at n.hdr n.body core (all.map (·.1)) (if n.hdr.lead then some (c + 1 + nw) else none) with
        args := n.args, node := node, wg := wg, fn := n.fn, slice := n.slice, started := false, sramBase := base, frame := frame
        privBase := r.reg 0x003, privStride := r.reg 0x004 % 4096, prio := n.prio, readyAge := n.readyAge
        admittedAt := s.clock, order := n.order }
      let s := s.setFunc n.fn (fun f => { f with frames := frame.toList ++ f.frames })
      let s := s.undefine (sramLoc core base) n.hdr.sram
      some { s with
        strands := all.foldl (fun t e => tset t e.1 e.2) s.strands, cxs := tset s.cxs c cx, nextId := c + nw + 2 }

/-- Whether a workgroup of a node has been admitted. -/
def State.admitted (s : State) (node : Nat) (n : Node) (w : Nat) : Bool :=
  n.completed.contains w || s.cxs.any (fun e => e.2.node == node && e.2.wg == w)

/-- The workgroups of a node that are admitted next, together (R310, R313). -/
def State.dueWgs (s : State) (node : Nat) (n : Node) : List Nat := (n.gangOf n.nextWg).filter (fun w => !s.admitted node n w)

/-- Admits workgroups wherever they fit first. -/
def State.admitAll (s : State) (node : Nat) (n : Node) : List Nat → Option State
  | [] => some s
  | w :: ws =>
    match s.place? n.slice n.hdr with
    | none => none
    | some (c, b) => (s.admitWg node n w c b).bind (fun s => s.admitAll node n ws)

/-- Whether another node of the slice holds back admissions for its gang (R314). -/
def State.gangHolds (s : State) (node slice : Nat) : Bool := s.nodes.any (fun e => e.1 != node && e.2.slice == slice && e.2.held)

/-- Whether the next workgroups of a kernel node can be admitted now. -/
def State.canAdmit (s : State) (node : Nat) (n : Node) : Bool :=
  n.kind == 0 && decide (n.nextWg < n.nwg) && !s.gangHolds node n.slice &&
  (s.admitAll node n (s.dueWgs node n)).isSome

/-! ## Choosing what to dispatch (R309, R367) -/

/-- Whether the engine pools of a die can take a command of a slice's copy node (R231, R308). -/
def State.poolOpen (s : State) (slice die : Nat) : Bool :=
  (s.cores_ slice).any (fun c => c / 16 == die) && decide ((s.die die).waiting.length < 1024)

/-- The lowest of the 16 collective engines that runs no node (R414). -/
def State.collFree (s : State) : Option Nat :=
  (List.range 16).find? (fun e => !s.nodes.any (fun n => n.2.coll.any (fun c => c.eng == e)))

/-- Whether a node's target can accept work: room for its next workgroups, in an engine pool of its slice, or on the
channel of an instance that has not started, or on a collective engine (R231, R309, R337, R414). -/
def State.canDispatch (s : State) (node : Nat) (n : Node) : Bool :=
  n.st == .pool && s.fnRuns n.fn &&
  (match n.kind with
   | 0 => s.canAdmit node n
   | 1 => (List.range 64).any (s.poolOpen n.slice)
   | 2 => (List.range n.nwg).any (s.instReady node n)
   | 3 => s.collFree.isSome
   | _ => true)

/-- DISP of a function in a level. -/
def State.dispOf (s : State) (f prio : Nat) : Nat := tgetD s.mg.disp (8 * f + prio) 0

/-- Whether function a goes before function b in a level. -/
def State.dispBefore (s : State) (prio a b : Nat) : Bool :=
  let wa := (s.slice a).dispw
  let wb := (s.slice b).dispw
  if wa == 0 && wb == 0 then decide (s.dispOf a prio < s.dispOf b prio) || (s.dispOf a prio == s.dispOf b prio && decide (a < b))
  else if wa == 0 then false
  else if wb == 0 then true
  else
    let x := s.dispOf a prio * wb
    let y := s.dispOf b prio * wa
    decide (x < y) || (x == y && decide (a < b))

/-! ### Saved contexts in the pool (R331) -/

/-- Gives a saved context its place on a compatible core; its residency begins again (R314). -/
def State.occupy (s : State) (c core base : Nat) : Option State :=
  match s.cx c with
  | none => none
  | some cx =>
    let holds := s.imageHolds (core / 16) cx
    if cx.resident || cx.savedForm.isNone || !s.coreGrants core cx.slice cx.hdr (s.gneed (core / 16) cx) c ||
        !s.sramFree core base cx.hdr.sram || (holds && (s.core core).holder.isSome) then none
    else
      let s := s.updCx c (fun x => { x with resident := true, core := core, sramBase := base, admittedAt := s.clock })
      some (if holds then s.setCore core (fun y => { y with holder := some c }) else s)

/-- Gives saved contexts the first places that fit. -/
def State.occupyAll (s : State) : List Nat → Option State
  | [] => some s
  | c :: cs =>
    match s.cx c with
    | none => none
    | some cx =>
      ((s.cores_ cx.slice).findSome? (fun k => (s.sramFit k cx.hdr.sram).bind (fun b => s.occupy c k b))).bind (fun s => s.occupyAll cs)

/-- The saved contexts restored with a context: the members of its gang still at work, itself first (R313). -/
def State.savedGang (s : State) (c : Nat) (cx : Cx) : List Nat :=
  let g := ((tget s.nodes cx.node).map (fun n => n.gangOf cx.wg)).getD [cx.wg]
  c :: ((s.cxs.filter (fun e => e.1 != c && e.2.node == cx.node && g.contains e.2.wg)).map (·.1))

/-- The channel a saved comb instance is restored to, while that can take it (R337, R363). -/
def State.instHome (s : State) (c : Nat) (cx : Cx) : Option Nat :=
  ((s.channels cx.slice)[cx.wg]?).filter (fun chan => s.chanOpen cx.slice chan && !s.chanBusy chan && !s.chanReset chan && !s.keptFor (2048 + chan) c)

/-- Whether a saved workgroup or comb instance can be restored now. -/
def State.canRestore (s : State) (c : Nat) (cx : Cx) : Bool :=
  !cx.resident && cx.savedForm.isSome && s.fnRuns cx.fn &&
  (if cx.core < 1024 then !s.gangHolds cx.node cx.slice && (s.occupyAll (s.savedGang c cx)).isSome else (s.instHome c cx).isSome)

/-- What waits in the pool for its target: a node, or a saved context. -/
structure Turn where
  saved : Bool
  id : Nat
  prio : Nat
  fn : Nat
  age : Nat

/-- What the next dispatch goes to (R309, R331). -/
def State.dispatchPick (s : State) : Option Turn :=
  let before (a b : Turn) : Bool :=
    decide (b.prio < a.prio) ||
    (a.prio == b.prio && (if a.fn == b.fn then decide (a.age < b.age) else s.dispBefore a.prio a.fn b.fn))
  let ns := (s.nodes.filter (fun e => s.canDispatch e.1 e.2)).map (fun e => (⟨false, e.1, e.2.prio, e.2.fn, e.2.readyAge⟩ : Turn))
  let cs := (s.cxs.filter (fun e => s.canRestore e.1 e.2)).map (fun e => (⟨true, e.1, e.2.prio, e.2.fn, e.2.readyAge⟩ : Turn))
  match ns ++ cs with
  | [] => none
  | e :: es => some (es.foldl (fun a b => if before b a then b else a) e)

/-- The node the next dispatch goes to, when it goes to a node. -/
def State.nodePick (s : State) : Option (Nat × Node) :=
  match s.dispatchPick with
  | some t => if t.saved then none else (tget s.nodes t.id).map (fun n => (t.id, n))
  | none => none

/-- Counts a dispatch of a function in a level. -/
def State.countDisp (s : State) (f prio : Nat) : State := s.setMg (fun m => { m with disp := tbump m.disp (8 * f + prio) 1 })

/-- After an admission: the next workgroup, and a node whose workgroups are all admitted leaves the pool. -/
def State.advance (s : State) (node : Nat) : State :=
  let s := match tget s.nodes node with
    | some n =>
      let next := ((List.range' n.nextWg (n.nwg - n.nextWg)).find? (fun w => !s.admitted node n w)).getD n.nwg
      s.updNode node (fun x => { x with nextWg := next, st := if next = n.nwg then .running else x.st, due := none, held := false, gangPre := false })
    | none => s
  s.setDue node

/-- WORKGROUP_ADMISSION (R56, R310, R313): the dispatch goes to this node, whose next workgroup takes an
allotment of a core; the other members of its gang are placed with it, or none is. A node's first dispatch is also the
moment of its dispatch notice. -/
def execWorkgroupAdmission (node core base : Nat) (s : State) : Res :=
  .next (
    match s.nodePick with
    | none => s
    | some (i, n) =>
      if i != node || n.kind != 0 then s
      else
        match s.dueWgs node n with
        | [] => s
        | w :: ws =>
          match (s.admitWg node n w core base).bind (fun s => s.admitAll node n ws) with
          | none => s
          | some t =>
            let t := t.updNode node (fun x => { x with startedAt := x.startedAt.or (some s.clock) })
            (t.advance node).countDisp n.fn n.prio)

/-- Starts an instance of a comb node that has its turn; the node leaves the pool with its last one (R309, R337). -/
def State.startInst (s : State) (node : Nat) (n : Node) (idx : Nat) : State :=
  let s := (s.beginInst node n idx).countDisp n.fn n.prio
  s.updNode node (fun x => if (List.range x.nwg).all (s.admitted node x) then { x with st := .running } else x)

/-- COMB_INSTANCE_START (R309, R337, R338): the dispatch goes to this comb node, whose instance `idx` starts on its own
channel, when that holds none. -/
def execCombInstanceStart (node idx : Nat) (s : State) : Res :=
  .next (
    match s.nodePick with
    | none => s
    | some (i, n) => if i != node || n.kind != 2 || !s.instReady node n idx then s else s.startInst node n idx)

/-- WORKGROUP_START (R310, R425): a resident workgroup may issue once its die's stagger and phase delays have passed since
the last start, which is the first instruction of that workgroup's first warp (`State.begin`). -/
def execWorkgroupStart (cx : Nat) (s : State) : Res :=
  .next (
    match s.cx cx with
    | none => s
    | some c =>
      let die := c.core / 16
      match tget s.nodes c.node with
      | none => s
      | some n =>
        let wait := match tget n.dieStart die with
          | some t => t + max n.stagger (16 * stagFloor s.mg.stage)
          | none => n.startedAt.getD 0 + die * n.phase % 65536
        let waits := s.cxs.any (fun e => e.2.node == c.node && e.2.resident && e.2.started && !e.2.begun && e.2.core / 16 == die)
        if c.started || !c.resident || !s.fnRuns c.fn || waits || decide (s.clock < wait) then s
        else s.updCx cx (fun c => { c with started := true }))

/-! ## Pre-emption requests (R314, R326) -/

/-- The largest save area a context can need (R326). -/
def State.maxArea (s : State) (c : Nat) (cx : Cx) : Nat :=
  cx.hdr.maxSwOff ((s.core cx.core).holder == some c) + 4096 + 64 * (cx.hdr.wgSize + (if cx.hdr.lead then 1 else 0))

/-- Whether a context is saveable (R326). -/
def State.saveable (s : State) (c : Nat) (cx : Cx) : Bool :=
  let r := (s.func cx.fn).reg 0x013
  bits r 31 16 != 0 && decide ((if cx.core < 1024 then s.maxArea c cx else 54784) ≤ r % 65536 * 65536)

/-- The free save areas of a function. -/
def State.freeAreas (s : State) (f : Nat) : List Nat :=
  (List.range (bits ((s.func f).reg 0x013) 31 16)).filter (fun n => !(s.func f).saveAreas.contains n)

/-- A warp parked whole at one listed `.safe` instruction is saved at once, in form 1 (R327). -/
def Strand.parkedSafe (st : Strand) (c : Cx) : Bool :=
  let m := st.liveMask
  st.ctx == .L && m != 0 && !st.runEnd && st.run.isNone &&
  (lanesOf m).all (fun k =>
    let l := st.lane k
    (l.st == .join || l.st == .bar) && EndAct.isSafe l.act && l.pc = (st.lane (lowest m)).pc) &&
  (c.safeIdx (st.lane (lowest m)).pc).isSome

/-- Requests the save of a context. -/
def State.requestSave (s : State) (c : Nat) : State :=
  match s.cx c with
  | none => s
  | some cx =>
    if !cx.resident || cx.preempt.isSome || cx.saveSlot.isSome || !s.saveable c cx then s
    else
      match s.freeAreas cx.fn with
      | [] => s
      | a :: _ =>
        let s := s.setFunc cx.fn (fun f => { f with saveAreas := a :: f.saveAreas })
        let s := s.updCx c (fun x => { x with
          preempt := some s.clock, preemptCyc := (s.func cx.fn).reg 0x010 % 2 ^ 32, saveSlot := some a, area := s.areaVa cx.fn a })
        cx.strands.foldl (fun s i => s.updStrand i (fun st => if st.parkedSafe cx then { st with saveForm := some 1 } else st)) s

/-- The contexts that are saved with a context: the members of its gang (R313, R326). -/
def State.gangCxs (s : State) (c : Nat) : List Nat :=
  match s.cx c with
  | none => []
  | some cx =>
    match tget s.nodes cx.node with
    | none => [c]
    | some n => let g := n.gangOf cx.wg; (s.cxs.filter (fun e => e.2.node == cx.node && g.contains e.2.wg && e.2.resident)).map (·.1)

/-- Requests the youngest lower-priority saveable workgroup of a slice that has been resident `since` cycles,
with its gang, once a save area is free for each of them; one request at a time is under way (R314, R326). -/
def State.preemptFor (s : State) (n : Node) (since : Nat) : State :=
  let rs := s.cxs.filter (fun e => e.2.resident && e.2.slice == n.slice && decide (e.2.core < 1024))
  if rs.any (fun e => e.2.preempt.isSome) then s
  else
    let ok (e : Nat × Cx) : Bool := decide (e.2.prio < n.prio) && decide (e.2.admittedAt + since ≤ s.clock) &&
      (s.gangCxs e.1).all (fun c => ((s.cx c).map (s.saveable c)).getD false)
    match rs.filter ok with
    | [] => s
    | e :: es =>
      let v := es.foldl (fun a b => if a.2.admittedAt < b.2.admittedAt then b else a) e
      let gang := s.gangCxs v.1
      if (s.freeAreas v.2.fn).length < gang.length then s else gang.foldl State.requestSave s

/-- The first ready kernel node in the order of priority and age, when none of its workgroups can be admitted
(R326). -/
def State.starved (s : State) : Option (Nat × Node) :=
  match s.nodes.filter (fun e => e.2.st == .pool && e.2.kind == 0 && s.fnRuns e.2.fn) with
  | [] => none
  | e :: es =>
    let t := es.foldl (fun a b => if a.2.prio < b.2.prio || (a.2.prio == b.2.prio && b.2.readyAge < a.2.readyAge) then b else a) e
    if decide (t.2.nextWg < t.2.nwg) && !s.canAdmit t.1 t.2 && !s.gangHolds t.1 t.2.slice then some t else none

/-! ## Copy and collective nodes (R308, R407) -/

/-- Puts the command of a copy node in the queue of a die (R308): STATUS, BAR, LANDED, NB and QS are ignored. -/
def wkCopyNode (node die : Nat) (n : Node) : Wk Unit := do
  match ← wkRead n.fn n.body.toNat 32 with
  | .error _ => modify (fun s => s.updNode node (fun x => { x with st := .done, status := 4 }))
  | .ok b =>
    let op := leAt b 0 1
    let fl := leAt b 1 1 / 16
    let word := leAt b 24 4
    let opd := BitVec.ofNat 64 (leAt b 8 8)
    let opa := BitVec.ofNat 64 (leAt b 16 8)
    let len := word % 2 ^ 23
    let lin := op == 0xC0
    let bad := !(decide (0xC0 ≤ op) && decide (op ≤ 0xC3)) || leAt b 2 2 / 512 != 0 || bit fl 2 ||
      (bit fl 1 && (op == 0xC0)) || (!lin && opa != 0) ||
      (if lin then !(engPtrOk opa len && engPtrOk opd len) else !engPtrOk opd 64 || opd.toNat % 64 != 0)
    modify (fun s =>
      if bad then s.updNode node (fun x => { x with st := .done, status := 0x28 })
      else
        let c : Cmd := {
          id := s.nextId, op := op, cx := 0, fn := n.fn, strand := 0, lane := 0, nb := true, qs := false, mode := bit fl 1, bar := 0
          opd := opd, opa := opa, word := BitVec.ofNat 32 word, nominal := if lin then len else 0, landed := 0, started := false
          checked := false, cancel := false, block := [], ord := n.order.start, node := some node, wids := [] }
        { (s.setDie die (fun d => { d with queue := d.queue ++ [c] })).updNode node (fun x => { x with st := .running, live := 1 }) with
          nextId := s.nextId + 1 })

/-- Whether a collective record keeps the rules of R407. -/
def collOk (b : List Byte) : Bool :=
  let op := leAt b 0 1
  decide (op ≤ 4) && decide (leAt b 1 1 < 3) && (op == 0 || op == 2 || leAt b 1 1 == 0) &&
  (op == 4 || leAt b 2 1 == 0x10 || leAt b 2 1 == 0x12 || leAt b 2 1 == 3) && decide (leAt b 3 1 < 2) &&
  (b.drop 32).all (· == 0) && (op != 4 || decide (leAt b 4 4 < 2 ^ 20))

/-- The bytes of an element of a collective. -/
def collSize (b : List Byte) : Nat := if leAt b 2 1 == 0x12 then 2 else 4

/-- One addition, maximum or minimum of R407; the spec states no maximum or minimum of raw elements, which
are the free values of `fresh`. -/
def collCombine (b : List Byte) (fresh : Nat) (x y : Word) : Word :=
  let F := if leAt b 2 1 == 0x12 then bf16 else fp32
  match leAt b 2 1, leAt b 1 1 with
  | 3, 0 => x + y
  | 3, _ => Config.freeWord fresh
  | 0x12, 1 => w32 ((fmaxOp (x <<< (16 : Nat)) (y <<< (16 : Nat))).toNat / 65536)
  | 0x12, 2 => w32 ((fminOp (x <<< (16 : Nat)) (y <<< (16 : Nat))).toNat / 65536)
  | _, 0 => w32 (F.add 0 x.toNat y.toNat)
  | _, 1 => fmaxOp x y
  | _, _ => fminOp x y

/-- Whether this device sends its contribution to the other ranks: in a BROADCAST the root alone does. -/
def Coll.sends (c : Coll) : Bool := leAt c.body 0 1 != 3 || c.rank == leAt c.body 28 4
/-- The device of a rank. -/
def Coll.device (c : Coll) (r : Nat) : Nat := (c.ids.getD r 0).toNat

/-- The elements a rank contributes: this rank's source is read at its start. -/
def collElems (b : List Byte) (op nrank : Nat) : Nat := if op == 2 then leAt b 24 4 * nrank else leAt b 24 4

/-- What the local destination holds once every contribution is there (R407), or none while one is missing. -/
def Coll.result (c : Coll) (fresh : Nat) : Option (List Word) :=
  let op := leAt c.body 0 1
  let n := leAt c.body 24 4
  let nr := c.ids.length
  let part (r : Nat) : Option (List Word) := if r == c.rank then some c.own else (c.parts.find? (fun p => p.1 == r)).map (·.2)
  let all := c.own :: c.parts.map (·.2)
  match op with
  | 3 => part (leAt c.body 28 4)
  | 1 => if c.parts.length + 1 == nr then some ((List.range nr).flatMap (fun r => (part r).getD [])) else none
  | _ =>
    if c.parts.length + 1 == nr then
      let off := if op == 2 then c.rank * n else 0
      some ((List.range n).map (fun i =>
        let vs := all.map (fun w => w.getD (off + i) 0)
        (vs.drop 1).foldl (collCombine c.body (fresh + i)) (vs.headD 0)))
    else none

/-- A write on the PEER path at a place, applied at once: of a peer device, a collective engine or a launch (R209); that of
a peer's atomic is strong (R212). -/
def State.peerWrite (s : State) (f die a : Nat) (bs : List Byte) (strong : Bool := false) : State × Nat :=
  let w : Wr := {
    id := s.nextId, strand := 0, lane := 0, cx := 0, fn := f, path := .peer, die := die, loc := a, op := .store
    data := bs, strong := strong, carry := [], vis := [], all := false, cmd := none, wait := 0, pc := 0, ptr := 0 }
  ({ s with nextId := s.nextId + 1 }.applyWrite w, w.id)

/-- Writes bytes on the PEER path, page by page: the writes, or the failure. -/
def wkPeerWrite (f : Nat) : Nat → Nat → List Byte → Wk (Except Stop (List (Nat × Path)))
  | 0, _, _ => pure (.ok [])
  | fuel + 1, va, bs => do
    if bs.isEmpty then pure (.ok [])
    else
      let here := min bs.length (65536 - va % 65536)
      let go (s : State) (a : Nat) : Wk (Except Stop (List (Nat × Path))) := do
        match s.homeRefuses f a here true with
        | some x => set (s.afterRefusal f a here true x); pure (.error x)
        | none =>
          let (s, id) := s.peerWrite f 80 a (bs.take here)
          set s
          match ← wkPeerWrite f fuel (va + here) (bs.drop here) with
          | .ok l => pure (.ok ((id, .peer) :: l))
          | e => pure e
      match (← get).translate none 80 f va { w := true } false with
      | (s, .wait) => set s; failure
      | (s, .stop x) => set s; pure (.error x)
      | (s, .dram a) => go s a
      | (s, .host a) => go s a

/-- Completes a collective node with a command status. -/
def State.collEnd (s : State) (node st : Nat) : State :=
  s.updNode node (fun x => { x with st := .done, status := if st == 0 then 0 else 0x20 + st, errAt := s.clock, coll := none })

/-- The status of a failing access of a collective (R407). -/
def collStatus (code : Nat) : Nat := if code == 0x0B then 3 else if code == 0x0C || code == 0x0D then 4 else 2

/-- Whether every receiver has acknowledged, where ACK asks for it (R407). -/
def Coll.acked (c : Coll) : Bool := leAt c.body 3 1 == 0 || !c.sends || decide (c.ids.length ≤ c.acks.length + 1)

/-- Completes a collective node whose local destination is written, whose acknowledgements are there and whose sends have
entered the network (R407). -/
def State.collOver (s : State) (node : Nat) : State :=
  match (tget s.nodes node).bind Node.coll with
  | none => s
  | some c => if c.wrote && c.acked && s.mg.linkQ.all (fun x => x.node != some node) then s.collEnd node 0 else s

/-- Starts a collective node on an engine: its record, its channel and its source are read and its sends go to the network
(R407). A device id is the whole 32-bit number of the channel table (notes/assumptions/63.md). -/
def wkCollStart (node : Nat) (n : Node) (eng : Nat) : Wk Unit := do
  let fail (st : Nat) : Wk Unit := modify (fun s => s.collEnd node st)
  match ← wkRead n.fn n.body.toNat 64 with
  | .error _ => modify (fun s => s.updNode node (fun x => { x with st := .done, status := 4 }))
  | .ok b =>
    let op := leAt b 0 1
    let tab := ((← get).func n.fn).reg 0x135
    if !collOk b || (op != 4 && decide (bits tab 63 48 ≤ leAt b 4 4)) then fail 8
    else if op == 4 then
      modify (fun s =>
        (s.updNode node (fun x => { x with
          st := .running, coll := some { body := b, ids := [], rank := 0, own := [], parts := [], acks := [], wrote := leAt b 3 1 == 0, eng := eng } })).peerSend 3
          (leAt b 4 4) (toLE 4 (leAt b 16 1) ++ toLE 4 (leAt b 20 4) ++ toLE 8 (leAt b 8 8)) (some node))
      modify (fun s => s.collOver node)
    else
      match ← wkRead n.fn (bits tab 47 5 * 32 + 16 * leAt b 4 4) 16 with
      | .error e => fail (collStatus e.code)
      | .ok t =>
        let nr := leAt t 0 2
        let rank := leAt t 2 2
        if nr == 0 || decide (nr ≤ rank) || leAt t 4 4 != 0 || (op == 3 && decide (nr ≤ leAt b 28 4)) then fail 8
        else
          match ← wkRead n.fn (leAt t 8 8) (4 * nr) with
          | .error e => fail (collStatus e.code)
          | .ok ids =>
            let sz := collSize b
            let cnt := if op == 3 && rank != leAt b 28 4 then 0 else collElems b op nr
            match ← wkRead n.fn (leAt b 8 8) (sz * cnt) with
            | .error e => fail (collStatus e.code)
            | .ok src =>
              let c : Coll := {
                body := b, ids := (List.range nr).map (fun i => BitVec.ofNat 32 (leAt ids (4 * i) 4)), rank := rank
                own := (List.range cnt).map (fun i => BitVec.ofNat 32 (leAt src (sz * i) sz)), parts := [], acks := [], eng := eng }
              modify (fun s =>
                let s := s.updNode node (fun x => { x with st := .running, coll := some c })
                if c.sends then (List.range nr).foldl (fun s r => if r == rank then s else s.peerSend 2 (c.device r) src (some node)) s else s)

/-- Acknowledges to each contributor that its contribution has been applied. -/
def State.collThank (s : State) (node : Nat) (c : Coll) : State :=
  c.parts.foldl (fun s p => s.linkSend 2 (c.device p.1) 8 (.collAck (c.device p.1) c.rank)) (s.updNode node (fun x => { x with coll := some { c with wrote := true } }))

/-- Writes the local destination of a collective node once every contribution is there, and completes the node when the
rest is done. -/
def wkCollGo (node : Nat) : Wk Unit := do
  let s ← get
  match tget s.nodes node with
  | none => pure ()
  | some n =>
    match n.coll with
    | none => pure ()
    | some c =>
      if leAt c.body 0 1 == 4 then pure ()
      else if c.wrote then modify (fun s => s.collOver node)
      else
        match c.result s.freeCtr with
        | none => pure ()
        | some vs =>
          set { s with freeCtr := s.freeCtr + leAt c.body 24 4 }
          let bs := vs.flatMap (fun v => toLE (collSize c.body) v.toNat)
          match ← wkPeerWrite n.fn (bs.length / 65536 + 2) (leAt c.body 16 8) bs with
          | .error e => modify (fun s => s.collEnd node (collStatus e.code))
          | .ok ws => modify (fun s => ((s.nodeWrote node ws).collThank node c).collOver node)

/-- Whether requests of other devices addressed to a function are answered RETRY: it is QUIESCED or on the way, or a
firmware activation holds it (R392, R393, R417). -/
def State.retries (s : State) (f : Nat) : Bool := (s.func f).ifState == 4 || (s.func f).quiesce.isSome || s.mg.fwstate == 3

/-- COLLECTIVE_CONTRIBUTION_ARRIVAL (R407); a quiesced function answers RETRY, 0x100, and it comes again (R393). One whose
length is not the rank's ends the node DESC (notes/assumptions/63.md). -/
def execCollectiveContributionArrival (node rank : Nat) (data : List Word) (s : State) : Res :=
  .next (
    match (tget s.nodes node).bind Node.coll with
    | none => s
    | some c =>
      if s.retries (((tget s.nodes node).map Node.fn).getD 0) then s.send (.refused 0x100 rank)
      else if rank == c.rank || decide (c.ids.length ≤ rank) || c.parts.any (fun p => p.1 == rank) || (leAt c.body 0 1 == 3 && rank != leAt c.body 28 4) then s
      else if data.length != collElems c.body (leAt c.body 0 1) c.ids.length then s.collEnd node 8
      else (s.updNode node (fun x => { x with coll := some { c with parts := c.parts ++ [(rank, data)] } })).wk (wkCollGo node))

/-- COLLECTIVE_ACK (R393, R407): a receiver's acknowledgement; for a LAUNCH, rank 0 is the target hub's acceptance
and any other value its refusal. -/
def execCollectiveAck (node rank : Nat) (s : State) : Res :=
  .next (
    match (tget s.nodes node).bind Node.coll with
    | none => s
    | some c =>
      if s.retries (((tget s.nodes node).map Node.fn).getD 0) then s.send (.refused 0x100 rank)
      else if leAt c.body 0 1 == 4 then s.collEnd node (if rank == 0 then 0 else 3)
      else if rank == c.rank || decide (c.ids.length ≤ rank) || c.acks.contains rank then s
      else (s.updNode node (fun x => { x with coll := some { c with acks := c.acks ++ [rank] } })).wk (wkCollGo node))

/-! ## Dispatch (R308, R309) -/

/-- Starts a copy, collective, host-signal or empty node on its target; a copy node on the pool of a die of its slice. -/
def wkStart (node die : Nat) (n : Node) : Wk Unit := do
  match n.kind with
  | 1 => wkCopyNode node die n
  | 3 =>
    match (← get).collFree with
    | some e => wkCollStart node n e; wkCollGo node
    | none => pure ()
  | 4 =>
    let ok ← wkSignal n
    modify (fun s => s.updNode node (fun x => { x with st := .done, status := if ok then 0 else 4 }))
  | _ => modify (fun s => s.updNode node (fun x => { x with st := .done }))

/-- DISPATCH (R309, R310, R326): the walker's next dispatch, when it goes to a node: a kernel node that is not started
gets its dispatch notice, and its first workgroup is what counts; a comb node starts its first instance that can start;
any other node starts. `die` is the die a copy node runs on, one of the slice's with room. Where the first ready kernel node finds no room, a lower-priority workgroup is asked to leave. -/
def execDispatchNode (die : Nat) (s : State) : Res :=
  .next (
    let s := match s.starved with
      | some (_, n) => s.preemptFor n 0
      | none => s
    match s.nodePick with
    | some (i, n) =>
      if n.kind == 0 then
        s.updNode i (fun x => { x with startedAt := x.startedAt.or (some s.clock) })
      else if n.kind == 2 then
        (match (List.range n.nwg).find? (s.instReady i n) with | some idx => s.startInst i n idx | none => s)
      else if n.kind == 1 && !s.poolOpen n.slice die then s
      else
        s.wk (do wkStart i die n; modify (fun s => s.countDisp n.fn n.prio))
    | none => s)

/-- DISP_HALVING (R309). -/
def execDispHalving (s : State) : Res := .next (s.setMg (fun m => { m with disp := tmap m.disp (· / 2) }))

/-! ## Completion (R59, R222, R305, R307, R339) -/

/-- Whether every lane of a context has exited and its commands have ended (R59, R339). -/
def State.wgOver (s : State) (c : Nat) (cx : Cx) : Bool :=
  cx.strands.all (fun i => match s.strand i with | some st => st.liveMask == 0 && !st.runEnd | none => true) &&
  (s.cmdsOf c).isEmpty && s.cores.all (fun e => e.2.mqueue.all (fun m => m.cx != c)) &&
  (match tget s.insts c with | some i => i.outCmds.isEmpty | none => true)

/-- WORKGROUP_COMPLETE (R59, R339): a finished workgroup or comb instance returns its resources; its node
completes with the last one. -/
def execWorkgroupComplete (cx : Nat) (s : State) : Res :=
  .next (
    match s.cx cx with
    | none => s
    | some c =>
      if !c.resident || !c.started || !s.wgOver cx c then s
      else
        let ws := s.cxWrites cx c
        let err := (tget s.insts cx).bind (fun i => if i.stk then some (i.firstErr, 0x20 + i.stkcode) else none)
        let s := if (s.core c.core).holder == some cx && decide (c.core < 1024) then s.endHolding c.core else s
        let s := s.setFunc c.fn (fun f => { f with
          frames := match c.frame with | some n => f.frames.erase n | none => f.frames
          saveAreas := match c.saveSlot with | some n => f.saveAreas.erase n | none => f.saveAreas })
        let s := s.dropCx cx
        let s := s.updNode c.node (fun n =>
          let n := { n with completed := n.completed ++ [c.wg], order := { n.order with hist := addWrites n.order.hist ws } }
          let n := match err with
            | some (t, st) => if n.status == 0 || decide (t < n.errAt) then { n with status := st, errAt := t } else n
            | none => n
          if n.completed.length == n.nwg && n.st != .done then { n with st := .done } else n)
        (s.unstall .block (fun t => s.homeUnit t == c.core)).unstall .waggle (fun t => s.homeUnit t == c.core))

/-- Decrements PREDCNT of a successor whose record can be read; at 0 it becomes ready (R305). -/
def wkSucc (n : Node) (p : W64) : Wk Unit := do
  if !space0 p.toNat 64 then wkRecord n.fn 0x02 7 p
  else
    match ← wkRead n.fn p.toNat 64 with
    | .error e => wkStop n.fn e p
    | .ok b =>
      let k := leAt b 44 4
      if k = 0 then wkRecord n.fn 0x02 7 0
      else
        match ← wkWrite n.fn (p.toNat + 44) (toLE 4 (k - 1)) with
        | some e => wkStop n.fn e p
        | none =>
          let s ← get
          let old := s.nodes.find? (fun e => e.2.st == .waiting && e.2.fn == n.fn && e.2.record == p)
          let h := addWrites ((old.map (fun e => e.2.order.hist)).getD []) n.order.hist
          let skip := n.status != 0 || ((old.map (fun e => e.2.status != 0)).getD false)
          let nodes := match old with | some e => tdel s.nodes e.1 | none => s.nodes
          if k = 1 then do
            set { s with nodes := nodes }
            let _ ← wkReady n.fn p { skip := skip, order := { Ord.empty with hist := h } }
          else
            set { s with nodes := nodes }
            let _ ← wkAdd { Node.of [] p n.fn with st := .waiting, status := if skip then 6 else 0, order := { Ord.empty with hist := h } }

/-- Each successor of a node, in array order. -/
def wkSuccs (n : Node) : List Nat → Wk Unit
  | [] => pure ()
  | i :: is => do
    match ← wkRead n.fn (n.succ.toNat + 8 * i) 8 with
    | .error e => wkStop n.fn e (BitVec.ofNat 64 (n.succ.toNat + 8 * i))
    | .ok b => wkSucc n (BitVec.ofNat 64 (leAt b 0 8))
    wkSuccs n is

/-- One root of a launch has completed: with the last one, BUSY of its entry clears (R317). -/
def wkLaunchDone (f node entry : Nat) : Wk Unit := do
  let s ← get
  let key := 256 * f + entry
  let left := (tgetD s.mg.rlBusy key []).erase node
  set (s.setMg (fun m => { m with rlBusy := if left.isEmpty then tdel m.rlBusy key else tset m.rlBusy key left }))
  if left.isEmpty then do
    let at_ := (s.func f).reg 0x01B + 32 * entry + 1
    match ← wkRead f at_ 1 with
    | .error _ => pure ()
    | .ok b => let _ ← wkWrite f at_ (toLE 1 (leAt b 0 1 &&& 0xFD))

/-- A node's STATUS is written, then its successors' PREDCNT decremented in order (R305 to R307). -/
def wkComplete (node : Nat) (n : Node) : Wk Unit := do
  match ← wkWrite n.fn (n.record.toNat + 60) (toLE 1 n.status) with
  | some e => wkStop n.fn e n.record
  | none => pure ()
  modify (fun s => { s with nodes := tdel s.nodes node })
  let ok := space0 n.succ.toNat 8
  wkSuccs n (if ok then List.range n.succCnt else [])
  match n.launch with
  | some e => wkLaunchDone n.fn node e
  | none => pure ()

/-- NODE_COMPLETE (R222, R305 to R307): a node whose work is done completes; one of a function that is quiesced once it
goes on, or is reset (R393, R413). -/
def execNodeComplete (node : Nat) (s : State) : Res :=
  .next (
    match tget s.nodes node with
    | none => s
    | some n =>
      if n.st != .done || (s.retries n.fn && !s.resetting n.fn) || s.unapplied (fun id => n.order.hist.any (·.1 == id)) then s
      else s.wk (wkComplete node n))

/-! ## Gangs (R314) -/

/-- The cycles since a gang's first member became due, while it is unplaced. -/
def State.gangAge (s : State) (n : Node) : Option Nat := if n.st == .pool then n.due.map (fun d => s.clock - d) else none

/-- GANGCFG.WAIT and PRE as the wait that is under way found them (R325). -/
def Node.waitCyc (n : Node) : Nat := n.gangCfg % 2 ^ 32
def Node.preCyc (n : Node) : Nat := n.gangCfg / 2 ^ 32

/-- GANG_WAIT_EXPIRY (R314). -/
def execGangWaitExpiry (node : Nat) (s : State) : Res :=
  .next (s.updNode node (fun n => match s.gangAge n with
    | some t => if n.waitCyc ≤ t then { n with held := true } else n
    | none => n))

/-- GANG_PRE_EXPIRY (R314): one more request, while the gang does not fit. -/
def execGangPreExpiry (node : Nat) (s : State) : Res :=
  .next (
    match tget s.nodes node with
    | none => s
    | some n =>
      match s.gangAge n with
      | some t =>
        if t < n.preCyc || s.canAdmit node n then s
        else (s.updNode node (fun n => { n with gangPre := true })).preemptFor n n.waitCyc
      | none => s)

/-- GANG_UNPLACEABLE (R314): after PRE + WAIT cycles; members already started are killed. -/
def execGangUnplaceable (node : Nat) (s : State) : Res :=
  .next (
    match tget s.nodes node with
    | none => s
    | some n =>
      match s.gangAge n with
      | some t => if n.preCyc + n.waitCyc ≤ t then s.killNode node 5 else s
      | none => s)

/-! ## Remote launch (R316, R317, R393) -/

/-- A refused launch packet: counted, and an ASYNC record of code SLICE with the cause. -/
def State.launchRefused (s : State) (f cause : Nat) : State :=
  (s.countSlice f .refusedPacket).walkerRecord f 0x0B cause 0

/-- Checks and accepts one launch packet. -/
def wkLaunch (f entry sender : Nat) (seq : Word) (arg : W64) : Wk Unit := do
  let at_ := ((← get).func f).reg 0x01B + 32 * entry
  let refuse (cause : Nat) : Wk Unit := modify (fun s => s.launchRefused f cause)
  if 256 ≤ entry then refuse 0
  else
    match ← wkRead f at_ 32 with
    | .error _ => refuse 0
    | .ok b =>
      let fl := leAt b 1 1
      if fl % 2 == 0 || leAt b 0 1 / 8 != 0 || fl / 4 != 0 || leAt b 2 2 == 0 || 4096 < leAt b 2 2 || leAt b 4 4 / 2 ^ 20 != 0 || leAt b 28 4 != 0 then refuse 0
      else if bit fl 1 then refuse 3
      else if leAt b 4 4 != sender then refuse 1
      else if seq.toNat ≤ leAt b 24 4 then refuse 2
      else do
        let e1 ← wkWrite f (at_ + 24) (toLE 4 seq.toNat)
        let e2 ← wkWrite f (at_ + 1) (toLE 1 (fl ||| 2))
        match e1.or e2 with
        | some x => wkStop f x (BitVec.ofNat 64 at_)
        | none => pure ()
        let slot := leAt b 16 8
        let ws ← if space0 slot 8 then do
            match ← wkPeerWrite f 2 slot (toLE 8 arg.toNat) with
            | .ok ws => pure ws
            | .error x => wkStop f x (BitVec.ofNat 64 slot); pure []
          else do wkRecord f 0x02 7 (BitVec.ofNat 64 slot); pure []
        let ids ← do
          match ← wkRoots f (leAt b 8 8) (leAt b 2 2) with
          | .error x => wkStop f x (BitVec.ofNat 64 (leAt b 8 8)); pure []
          | .ok ps => wkSubmit f { pmax := leAt b 0 1 % 8, launch := some entry, order := { Ord.empty with hist := ws } } ps
        modify (fun s => s.setMg (fun m => { m with rlBusy := tset m.rlBusy (256 * f + entry) ids }))
        if ids.isEmpty then wkLaunchDone f 0 entry

/-- LAUNCH_PACKET (R317, R393): checked and its roots submitted, held while its function is quiesced, or
refused. While the function's intake holds nodes, or packets held before it wait, the hub does not read the packet (R309). -/
def execLaunchPacket (f entry : Nat) (sender : BitVec 20) (seq : Word) (arg : W64) (s : State) : Res :=
  .next (
    let x := s.func f
    if s.retries f then
      if 64 ≤ x.heldLaunch.length then s.launchRefused f 3
      else s.setFunc f (fun x => { x with heldLaunch := x.heldLaunch ++ [(entry, sender.toNat, seq, arg)] })
    else if !s.intakeFree f || !x.heldLaunch.isEmpty then s
    else s.wk (wkLaunch f entry sender.toNat seq arg))

/-- Processes the launch packets held for a function, oldest first, while it takes them and its intake has room (R393). -/
def State.heldGo (s : State) (f : Nat) : Nat → State
  | 0 => s
  | n + 1 =>
    match (s.func f).heldLaunch with
    | [] => s
    | (entry, sender, seq, arg) :: rest =>
      if !s.intakeFree f || s.retries f then s
      else ((s.setFunc f (fun x => { x with heldLaunch := rest })).wk (wkLaunch f entry sender seq arg)).heldGo f n

/-- WALKER_INTAKE_DRAIN (R309, R393): a function's oldest node in the intake enters the pool when the pool and the
slice's quota have room; once the intake is empty, launch packets held for the function follow. -/
def execWalkerIntakeDrain (f : Nat) (s : State) : Res := .next ((s.intakeDrain f).heldGo f 64)

/-! ## grp (R315, R333) -/

/-- `grp`: reads and counts group state, once per group. -/
def grpBody (s : State) (x : Iss) : Act :=
  match s.cx x.st.cx with
  | none => .done { s := s }
  | some c =>
    let node := tget s.nodes c.node
    let gs := ((node.map Node.groups).getD [])
    let k := x.h.f.x.toNat
    let d := x.h.f.d.toNat
    let put (s : State) (v : Word) : Act :=
      .done { s := s.updStrand x.i (fun st => st.write32 x.m d (fun _ => v) (some (.u v))), dst := .reg d }
    let misuse : Act := .done { s := s.trapLanes x.i x.m 0x20 x.pc 4 0 }
    match (slotsOf gs c.wg)[x.h.f.a.toNat % 4]? with
    | none => if k < 5 then put s 0xFFFFFFFF else misuse
    | some e =>
      match gs[e]? with
      | none => misuse
      | some g =>
        match k with
        | 0 => put s (BitVec.ofNat 32 e)
        | 1 => put s (BitVec.ofNat 32 (g.members.findIdx (· == c.wg)))
        | 2 => put s (BitVec.ofNat 32 g.count)
        | 3 => put s (BitVec.ofNat 32 g.kind)
        | 4 => put s (match g.members[(x.st.src (lowest x.m) x.h.f.b).toNat]? with | some w => BitVec.ofNat 32 w | none => 0xFFFFFFFF)
        | 5 =>
          if g.kind != 0 || g.arrived.contains c.wg then misuse
          else
            let h := (lanesOf x.m).foldl (fun h k => addWrites h (onPaths (x.st.lane k).ord.hist 1)) g.next
            let g' := if g.arrived.length + 1 == g.count then
                { g with arrived := [], gen := g.gen + 1, carry := addWrites g.carry h, next := [] }
              else { g with arrived := c.wg :: g.arrived, next := h }
            put (s.updNode c.node (fun n => { n with groups := n.groups.set e g' })) g.gen
        | _ =>
          if g.kind != 0 then misuse
          else put (s.updStrand x.i (fun st => st.acquire x.m g.carry 1)) g.gen

/-- `grp` (R333); a slot past the header's GROUPS fails step 2 of R40 (R312). -/
def execGrp (f : Rrr) (s : State) : Res :=
  let h := hdOf 0xF1 (rrrWord 0xF1 f)
  let n := ((s.strand s.cur).map (fun st => (s.hdrOf st).groups)).getD 0
  .next (s.issue { h with ok := h.ok && decide (f.a.toNat % 4 < n) } grpBody)

end Sys2Proof.Machine
end

