-- ==== Sys2Proof/Machine/Save.lean ====
section
/-! DEFINITION. Pre-emption (R326 to R331, R362, R363, R428): the timeout, the save area and its sections, and
restoring a context from it (R76, R103, R104, R156, R238, R253, R275 to R277, R301 to R303). -/
namespace Sys2Proof.Machine

/-- Stops a context where a forced full save stops it (R328): its warps' entry lists are those of this moment, or of the
run end that is still to come (R73, R330). A warp released at a safe point before that goes on with its save routine
(R327). -/
def State.force (s : State) (c : Nat) : State :=
  match s.cx c with
  | none => s
  | some x =>
    if x.forced then s
    else
      let s := x.strands.foldl (fun s i => s.updStrand i (fun st => { st with deferred := (st.pends.filter Pend.trailed).map Pend.dst })) s
      x.strands.foldl State.settle (s.updCx c (fun y => { y with forced := true }))

/-- PREEMPTTO_EXPIRY (R325, R327): a request that has waited PREEMPTTO.CYC cycles forces the full save. -/
def execPreempttoExpiry (cx : Nat) (s : State) : Res :=
  .next (match (s.cx cx).bind (fun c => c.preempt.map (fun t => (c, t))) with
    | some (c, t) => if t + c.preemptCyc ≤ s.clock then s.force cx else s
    | none => s)

/-! ## Sections (R103, R155, R253, R276, R302, R329, R330) -/

def up64 (n : Nat) : Nat := (n + 63) / 64 * 64
def zeros (n : Nat) : List Byte := List.replicate n 0

/-- A register record (R103). -/
def regRecord (live : Word) (r : VReg) : List Byte :=
  match r with
  | .u v => 0 :: toLE 4 v.toNat ++ zeros 4
  | .a b d => 1 :: toLE 4 b.toNat ++ toLE 4 d.toNat
  | .g vs => 2 :: (List.range 32).flatMap (fun k => toLE 4 (if inMask live k then (vs.getD k 0).toNat else 0))

/-- The `lcr` image (R155). -/
def Lcr.bytes (l : Lcr) : List Byte :=
  toLE 8 (l.ovf.toNat * 2 ^ 24 + l.carry.toNat * 2 ^ 8 + l.log2n.toNat) ++ (List.range 16).flatMap (fun c => toLE 4 (l.spill.getD c 0).toNat)

/-- A barrier record (R253). -/
def Bar.bytes (b : Bar) : List Byte :=
  let f (c : Bool) (n : Nat) : Nat := if c then 2 ^ n else 0
  toLE 8 (wrapTo 32 b.pending * 2 ^ 32 + b.arrived * 2 ^ 20 + b.threads * 2 ^ 8 + b.err * 16 + b.lerr) ++
  toLE 8 (b.out * 2 ^ 48 + f b.cnterr 12 + b.stkcode * 256 + f b.stk 2 + f b.phase 1 + f b.valid 0)

/-- A remainder record (R238); BAR of a command without a barrier is the free value `n`. -/
def Cmd.remainder (c : Cmd) (n : Nat) : List Byte :=
  toLE 1 c.op ++ toLE 1 (((if c.nb then 1 else 0) + (if c.mode then 2 else 0) + (if c.qs then 8 else 0)) * 16 + 7) ++
  toLE 2 (if c.nb then (Config.freeWord n).toNat % 512 else c.bar) ++ toLE 4 c.landed ++ toLE 8 c.opd.toNat ++ toLE 8 c.opa.toNat ++
  toLE 4 c.word.toNat ++ toLE 4 c.nominal

/-- An away record (R276). -/
def awayRecord (g : Strand) (f : Forager) (home : Nat) : List Byte :=
  let l := g.lane 0
  let u := f.unit.getD home
  toLE 1 f.lane ++ toLE 1 ((if l.st == .fault then 128 else 0) + (f.count - 1) * 16 + f.hop) ++ toLE 1 f.first ++ toLE 1 l.preds.toNat ++
  toLE 2 (dieOfUnit u * 16 + u % 16) ++ zeros 2 ++ toLE 8 l.pc.toNat ++
  (List.range 8).flatMap (fun n => toLE 4 (if n < f.count then (g.sreg (f.first + n)).toNat else 0)) ++ zeros 16

/-- A lane's state code (R330). -/
def LaneSt.code : LaneSt → Nat
  | .ready | .mwait => 0
  | .join => 1
  | .bar => 2
  | .fault => 3
  | .waggle => 4
  | .exited => 5
  | .never => 6
  | .away => 7

/-- The run position of a stopped run (R330). -/
def Strand.runPos (st : Strand) : Nat := st.runLen + st.runLong * 32

/-- A warp section (R330); `form` is the context's form, which a warp with no live lane carries. -/
def warpSection (c : Cx) (form : Nat) (st : Strand) : List Byte :=
  let live := st.liveMask
  let form := if live = 0 then form else st.saveForm.getD 2
  let full := form == 2
  let mid := full && st.runPos != 0
  let pc := if live = 0 then 0 else (st.lane (lowest live)).pc
  let idx := if live = 0 || full then none else c.safeIdx pc
  let regs := (List.range c.hdr.vregs).flatMap (fun n => regRecord live (st.vreg n))
  let len := up64 (1552 + regs.length)
  let each (f : Nat → List Byte) : List Byte := (List.range 32).flatMap f
  toLE 1 st.wid ++ toLE 1 form ++ zeros 2 ++ toLE 4 live.toNat ++ toLE 4 (st.laneMask (fun l => l.st == .away)).toNat ++ toLE 4 len ++
  st.lcr.bytes ++ each (fun k => toLE 1 (st.lane k).preds.toNat) ++ toLE 8 (if full then 0 else pc.toNat) ++
  (List.range 16).flatMap (fun n => toLE 4 (st.js.getD n 0).toNat) ++
  (if full then each (fun k => toLE 8 (st.lane k).pc.toNat) ++ each (fun k => toLE 1 (st.lane k).st.code) ++
      (List.range 8).flatMap (fun n => toLE 4 (st.deferred.getD n 0xFFFFFFFF)) else zeros 320) ++
  toLE 4 (if c.hdr.lead then min c.waggle.length (st.popped - c.freed) else 0) ++ toLE 4 (if full then st.runPos else 0) ++
  toLE 4 (idx.getD 0xFFFFFFFF) ++ toLE 4 (if mid then ((st.run.map Run.mask).getD 0).toNat else 0) ++
  (if mid then (List.range 8).flatMap (fun n => each (fun k => toLE 4 ((st.win (n + 1)).v.read k).toNat)) else zeros 1024) ++
  regs ++ zeros (len - 1552 - regs.length)

/-- The lead section (R330). -/
def leadSection (c : Cx) (st : Strand) : List Byte :=
  let mid := st.runPos != 0
  (List.range 56).flatMap (fun n => toLE 8 (st.sreg n).toNat) ++ toLE 8 (st.lane 0).pc.toNat ++ toLE 1 (st.lane 0).preds.toNat ++ zeros 1 ++
  toLE 2 c.waggle.length ++ toLE 4 st.runPos ++ (if mid then (List.range 8).flatMap (fun n => toLE 8 (st.win (n + 1)).s.toNat) else zeros 64) ++
  c.waggle.flatMap (fun v => toLE 8 v.toNat)

/-- A matrix command record (R302). -/
def MCmd.record (m : MCmd) : List Byte :=
  let tile (t : List Word) : List Byte := t.flatMap (fun w => toLE 4 w.toNat) ++ zeros (1024 - 4 * t.length)
  toLE 1 m.op ++ toLE 1 m.d ++ toLE 1 m.x ++ zeros 1 ++ toLE 2 m.step ++ zeros 2 ++ toLE 8 m.aBase.toNat ++ toLE 8 m.aDesc.toNat ++
  toLE 8 m.bBase.toNat ++ toLE 8 m.bDesc.toNat ++ zeros 24 ++
  (if m.shape.isEmpty then tile m.aTile else m.shape ++ zeros (1024 - m.shape.length)) ++ tile m.bTile

/-- The matrix save image (R302). -/
def State.matrixImage (s : State) (c : Nat) (cx : Cx) : List Byte :=
  let core := s.core cx.core
  let holds := core.holder == some c
  let ms := core.mqueue.filter (fun m => m.cx == c)
  let word := cx.mstkcode * 2 ^ 24 + (if cx.mstk then 2 ^ 22 else 0) + cx.mfstep % 65536
  let head := toLE 1 (if holds then 1 else 0) ++ toLE 1 ms.length ++ toLE 1 cx.werr ++ zeros 1 ++ toLE 4 word ++ toLE 2 cx.wstep ++ zeros 54
  if !holds then head
  else
    head ++ (List.range 16).flatMap (fun n => match tget core.resv n with
      | some r => toLE 1 1 ++ toLE 1 r.fmt ++ toLE 2 r.soff ++ toLE 4 r.off ++ toLE 4 r.len ++ zeros 4
      | none => zeros 16) ++
    ms.flatMap MCmd.record ++ zeros (2112 * (8 - ms.length)) ++ s.homeRead (accLoc cx.core 0 0 0) 262144 ++ s.homeRead (scaleLoc cx.core 0) 65536

/-! ## What a save waits for (R238, R275, R301, R328) -/

/-- Whether a strand's class-L results have all landed. -/
def Strand.quiet (st : Strand) : Bool := st.pends.isEmpty && st.trail.isNone && !st.runEnd

/-- Whether the save of a context can be written now. -/
def State.saveReady (s : State) (c : Nat) (cx : Cx) : Bool :=
  let core := s.core cx.core
  cx.resident && s.allStopped cx &&
  s.strands.all (fun e => e.2.cx != c || (e.2.quiet && (e.2.fg.isNone || (e.2.run.isNone && (e.2.lane 0).act.isNone)))) &&
  (s.cmdsOf c).all (fun e => e.2.op != 0xC3 || !e.2.started) &&
  (match core.mqueue.filter (fun m => m.cx == c) with
   | [] => true
   | m :: _ => m.rests) &&
  (match tget s.insts c with | some i => i.outCmds.isEmpty | none => true) &&
  (decide (1024 ≤ cx.core) || s.inflight.all (fun w => !w.overlaps (sramLoc cx.core cx.sramBase) cx.hdr.sram))

/-! ## Writing a save area (R329, R428) -/

/-- Opens the pages of a save area for reading and writing. -/
def State.areaOpen (s : State) (die f : Nat) : Nat → Nat → State × Got Unit
  | 0, _ => (s, .ok ())
  | n + 1, va =>
    match s.translate none die f va { r := true, w := true } false with
    | (s, .stop x) => (s, .stop x va)
    | (s, .wait) => (s, .wait)
    | (s, _) => s.areaOpen die f n ((va / 65536 + 1) * 65536)

/-- Writes bytes of a save area. -/
def State.areaWrite (s : State) (die f va : Nat) (bs : List Byte) : State × Got Unit :=
  if bs.isEmpty then (s, .ok ())
  else
    match s.areaOpen die f ((va % 65536 + bs.length + 65535) / 65536) va with
    | (s, .ok _) => s.fnWrite die f va bs
    | r => r

/-- Reads bytes of a save area. -/
def State.areaRead (s : State) (die f va n : Nat) : State × Got (List Byte) :=
  match s.areaOpen die f ((va % 65536 + n + 65535) / 65536) va with
  | (s, .ok _) => s.fnRead die f va n
  | (s, .stop x a) => (s, .stop x a)
  | (s, .wait) => (s, .wait)

/-- Gives up a save or a restore whose area could not be accessed (R428). -/
def State.abandon (s : State) (c : Nat) (x : Stop) (addr : Nat) : State :=
  match s.cx c with
  | none => s
  | some cx =>
    let r : FaultRec := match cx.strands.head?.bind s.strand with
      | some st => { s.mkFault st 0 x.code 0 (BitVec.ofNat 64 addr) 0 x.detail false with async := true, resume := 0 }
      | none => s.walkerFault cx.fn x.code x.detail (BitVec.ofNat 64 addr)
    (s.queueRecord cx.fn r none).killNode cx.node 8

/-- The records of a lane that still wait: those the fault queue has, then those not yet delivered. -/
def State.pendingOf (s : State) (f i k : Nat) : List FaultRec :=
  let fn := s.func f
  fn.fqPosted.filterMap (fun e => if e.2.1 == i && e.2.2.1 == k then some e.2.2.2 else none) ++
  (fn.fqWait.zip fn.fqWaitOf).filterMap (fun e => if e.2 == some (i, k) then some e.1 else none) ++
  ((s.strand i).map (fun st => (st.lane k).flts)).getD []

/-- The strand and lane that hold the state of lane k of strand i: itself, or its forager. -/
def State.lanePlace (s : State) (i k : Nat) (l : Lane) : Nat × Nat :=
  if l.st == .away then (match s.foragerOf i k with | some (j, _) => (j, 0) | none => (i, k)) else (i, k)

/-- Ends every command of a context for its save; its remainder records in issue order (R238), or none while what one
describes has still to be read. -/
def State.quiesceCmds (s : State) (c : Nat) : State × Option (List (List Byte)) :=
  let cs := (s.cmdsOf c).mergeSort (fun a b => decide (a.2.id ≤ b.2.id))
  cs.foldl (fun a e =>
    match a.2 with
    | none => a
    | some rs =>
      match a.1.described e.1 e.2 with
      | (s, none) => (s, none)
      | (s, some cmd) => ({ s.cmdEnd e.1 cmd 7 with freeCtr := s.freeCtr + 1 }, some (rs ++ [cmd.remainder s.freeCtr]))) (s, some [])

/-- Sections one after another, each on a 64-byte boundary, from the bytes so far: the offset of each, 0 where
it is absent. The bytes between are the free values from n. -/
def layout (n : Nat) : List Byte → List (List Byte) → List Byte × List Nat
  | acc, [] => (acc, [])
  | acc, b :: bs =>
    if b.isEmpty then let (o, l) := layout n acc bs; (o, 0 :: l)
    else
      let at_ := up64 acc.length
      let (o, l) := layout n (acc ++ (List.range' acc.length (at_ - acc.length)).map (fun i => Config.freeByte (n + i)) ++ b) bs
      (o, at_ :: l)

/-- The area of a context as the hardware writes it: all bytes before the software part, and the pending fault
records with their offset. -/
def State.areaImage (s : State) (cx : Cx) (mat : List Byte) (rems : List (List Byte)) : List Byte × Nat × List Byte :=
  let parts := cx.strands.filterMap (fun i => (s.strand i).map (fun st => (i, st)))
  let warps := parts.filter (fun e => e.2.ctx == .L)
  let alive := warps.filter (fun e => e.2.liveMask != 0)
  let form := (alive.map (fun e => e.2.saveForm.getD 2)).foldl max (if alive.isEmpty then 2 else 0)
  let aways := warps.flatMap (fun e => (List.range 32).filterMap (fun k =>
    if (e.2.lane k).st == .away then (s.foragerOf e.1 k).bind (fun g => g.2.fg.map (fun f => awayRecord g.2 f cx.core)) else none))
  let flts := parts.flatMap (fun e => (List.range e.2.lanes.length).flatMap (fun k =>
    let p := s.lanePlace e.1 k (e.2.lane k)
    if s.laneFaulted e.1 k (e.2.lane k) then s.pendingOf cx.fn p.1 p.2 else []))
  let idx := (alive.find? (fun e => e.2.saveForm.getD 2 != 2)).bind (fun e => cx.safeIdx (e.2.lane (lowest e.2.liveMask)).pc)
  let lead := match parts.find? (fun e => e.2.ctx == .D) with | some e => leadSection cx e.2 | none => []
  let secs := [warps.flatMap (fun e => warpSection cx form e.2), cx.bars.flatMap Bar.bytes, rems.flatten, aways.flatten, lead, mat,
    s.homeRead (sramLoc cx.core cx.sramBase) cx.hdr.sram]
  let (body, offs) := layout s.freeCtr (zeros 256) secs
  let sw := cx.swOff.getD (up64 body.length)
  let fo := if flts.isEmpty then 0 else up64 (sw + 4096)
  let total := if flts.isEmpty then sw + 4096 else fo + 64 * flts.length
  let head := toLE 2 0x5A5E ++ toLE 1 form ++ toLE 1 warps.length ++ toLE 4 (Config.nodeHandle cx.node).toNat ++ toLE 4 cx.wg ++ zeros 4 ++
    toLE 8 cx.image.toNat ++ toLE 4 (idx.getD 0xFFFFFFFF) ++ toLE 2 rems.length ++ toLE 2 aways.length ++ offs.flatMap (toLE 4) ++ toLE 4 sw ++
    toLE 4 total ++ toLE 2 flts.length ++ zeros 2 ++ toLE 4 fo ++ zeros 4 ++
    (List.range 4).flatMap (fun n => toLE 4 (cx.fstat.getD n 0).toNat) ++ zeros 160
  (head ++ body.drop 256 ++ (List.range' body.length (sw - body.length)).map (fun i => Config.freeByte (s.freeCtr + i)), fo,
    flts.flatMap (fun r => r.bytes false))

/-- Whether a forager is one its home lane is away with. -/
def Strand.captured (g : Strand) : Bool :=
  match g.fg with
  | some f => f.unit.isSome || (g.lane 0).st == .fault
  | none => false

/-- A thread of a saved context as it stands until it is restored. -/
def Strand.parkedAway (st : Strand) : Strand :=
  { st with
    run := none, stall := none, waits := none, places := [], walked := [], routine := .none, saveForm := none
    fg := st.fg.map (fun g => { g with unit := none, slot := none, queued := false, dest := none }) }

/-- A saved context leaves its core: its threads and what it knows stand still, and its resources return
(R59, R102, R275, R301). -/
def State.leaveCore (s : State) (c : Nat) (cx : Cx) (form : Nat) : State :=
  let core := s.core cx.core
  let holds := core.holder == some c
  let mine (i : Nat) : Bool := (s.strand i).any (fun st => st.cx == c)
  let sends (j : Nat) : Bool := (s.func cx.fn).replays.any (fun r => r.pend.sends j)
  let s := { s with
    cores := tmap s.cores (fun e => { e with arrivals := e.arrivals.filter (fun i => !mine i) })
    units := tmap s.units (fun e => { e with arrivals := e.arrivals.filter (fun i => !mine i) })
    strands := (s.strands.filter (fun (e : Nat × Strand) => e.2.cx != c || cx.strands.contains e.1 || e.2.captured || sends e.1)).map
      (fun (e : Nat × Strand) => (e.1, if e.2.cx != c then e.2 else e.2.parkedAway)) }
  let s := s.updCx c (fun x => { x with
    resident := false, preempt := none, forced := false, savedForm := some form, swOff := none
    mheld := core.mqueue.filter (fun m => m.cx == c) })
  let s := if holds then (s.setCore cx.core (fun y => { y with mqueue := y.mqueue.filter (fun m => m.cx != c) })).endHolding cx.core else s
  ((s.unstall .block (fun t => s.homeUnit t == cx.core)).unstall .waggle (fun t => s.homeUnit t == cx.core)).unstall .matrix
    (fun t => s.homeUnit t == cx.core)

/-- Writes the save area of a workgroup (R328, R329). -/
def State.saveWorkgroup (s0 : State) (c : Nat) (cx : Cx) : State :=
  let mat := s0.matrixImage c cx
  match s0.quiesceCmds c with
  | (t, none) => s0.takeWalks t
  | (s, some rems) =>
  let cx := (s.cx c).getD cx
  let (main, fo, flts) := s.areaImage cx mat rems
  let s := { s with freeCtr := s.freeCtr + main.length }
  let area := cx.area
  let die := dieOfUnit cx.core
  let form := leAt main 2 1
  match s.areaWrite die cx.fn area main with
  | (t, .wait) => s0.takeWalks t
  | (s, .stop x a) => s.abandon c x a
  | (s, .ok _) =>
    match s.areaWrite die cx.fn (area + fo) flts with
    | (t, .wait) => s0.takeWalks t
    | (s, .stop x a) => s.abandon c x a
    | (s, .ok _) => s.leaveCore c cx form

/-! ## Comb instances (R362, R363) -/

/-- A bank record (R362). -/
def Bank.record (b : Bank) : List Byte :=
  let ws (l : List Word) (n : Nat) : List Byte := (List.range n).flatMap (fun i => toLE 4 (l.getD i 0).toNat)
  (List.range 16).flatMap (fun n => ws (b.x.getD n []) 16) ++ (List.range 4).flatMap (fun n => ws (b.a.getD n []) 16) ++
  ws b.active 256 ++ ws b.shadow 256 ++ toLE 8 b.faulted.toNat ++ zeros 56

/-- The image of a comb instance (R362). -/
def State.instImage (s : State) (cx : Cx) (i : Inst) (st : Strand) : List Byte :=
  let chans := s.channels cx.slice
  toLE 2 0x5A5C ++ toLE 1 2 ++ zeros 1 ++ toLE 4 (Config.nodeHandle cx.node).toNat ++ toLE 4 cx.wg ++ zeros 4 ++ toLE 8 cx.image.toNat ++
  (List.range 56).flatMap (fun n => toLE 8 (st.sreg n).toNat) ++ toLE 8 (st.lane 0).pc.toNat ++ toLE 1 (st.lane 0).preds.toNat ++
  toLE 1 (if i.all then 1 else 0) ++ toLE 2 (chans.findIdx (· == i.modeChan) % 1024 + i.modeBank * 1024) ++ toLE 4 (s.cstatWord i) ++ zeros 24 ++
  (List.range 16).flatMap (fun k => (s.bank i.chan k).record)

/-- Writes the image of a comb instance to its save area (R362). -/
def State.saveInstance (s : State) (c : Nat) (cx : Cx) : State :=
  match tget s.insts c with
  | none => s
  | some i =>
    match s.strand i.strand with
    | none => s
    | some st =>
      match s.areaWrite (dieOfUnit cx.core) cx.fn cx.area (s.instImage cx i st) with
      | (t, .wait) => s.takeWalks t
      | (s, .stop x a) => s.abandon c x a
      | (s, .ok _) => s.leaveCore c cx 2

/-- SAVE_AREA_WRITE (R238, R275, R301, R328 to R330, R362, R428): a stopped context is written to its save area
and leaves its core. While it has not stopped, a warp that waits for the header's SWOFF tries again. -/
def execSaveAreaWrite (cx : Nat) (s : State) : Res :=
  .next (
    match s.cx cx with
    | none => s
    | some c =>
      match c.saveBad with
      | some (code, detail, a) => s.abandon cx ⟨code, detail, false⟩ a
      | none => if !s.saveReady cx c then c.strands.foldl State.evalSafe s else if c.core < 1024 then s.saveWorkgroup cx c else s.saveInstance cx c)

/-! ## Reading the sections back (R104, R156, R253, R303, R330) -/

/-- An `lcr` image read back, or none where it is invalid (R156). -/
def restoreLcr (b : List Byte) : Option Lcr :=
  let w := leAt b 0 8
  let n := w % 8
  let chains := if n = 0 then 0 else 32 / 2 ^ n
  let sp (c : Nat) : Nat := leAt b (8 + 4 * c) 4
  let clear := (List.range 16).all (fun c => decide (c < chains) || (!bit w (8 + c) && !bit w (24 + c) && sp c == 0))
  if decide (5 < n) || bits w 63 40 != 0 || bits w 7 3 != 0 || !clear then none
  else some ⟨BitVec.ofNat 3 n, BitVec.ofNat 16 (bits w 23 8), BitVec.ofNat 16 (bits w 39 24), (List.range 16).map (fun c => BitVec.ofNat 32 (sp c))⟩

/-- A barrier record read back, or none where it is invalid (R253); OUT is 0. -/
def restoreBar (b : List Byte) : Option Bar :=
  let v := leAt b 0 8
  let w := leAt b 8 8
  if bits w 47 13 != 0 || bits w 7 3 != 0 || decide (2048 < bits v 31 20) || decide (2048 < bits v 19 8) ||
      (!bit w 0 && (v != 0 || w != 0)) then none
  else some {
    pending := toSigned 32 (v / 2 ^ 32), arrived := bits v 31 20, threads := bits v 19 8, err := bits v 7 4, lerr := v % 16
    cnterr := bit w 12, stkcode := bits w 11 8, stk := bit w 2, phase := bit w 1, valid := bit w 0 }

/-- The barriers from their records, and the first that is invalid. -/
def restoreBars (b : List Byte) (old : List Bar) : List Bar × Option Nat :=
  let rs := old.mapIdx (fun i x => (x, restoreBar ((b.drop (16 * i)).take 16)))
  (rs.map (fun e => { e.2.getD {} with carry := e.1.carry, lcarry := e.1.lcarry }),
    (rs.zipIdx.find? (fun e => e.1.2.isNone)).map (·.2))

/-- Whether a reserved bit of a command record is set: in its d field or sub-op, in a descriptor, in `mconv`'s P0 and
M128 word, or in the shape record of a started `mconv` (R285, R293 to R295, R303). -/
def mcmdRes0 (b : List Byte) : Bool :=
  let op := leAt b 0 1
  let d := leAt b 1 1
  let x := leAt b 2 1
  let desc (o : Nat) : Bool := let v := leAt b o 8; bits v 63 56 != 0 || bits v 7 5 != 0 || bit v 3
  let fields : Bool := match opRow op with
    | some r => encOk r (rrrWord op { s := 0, x := BitVec.ofNat 4 x, d := BitVec.ofNat 6 d, a := 0, b := 0 })
    | none => true
  decide (64 ≤ d) || decide (16 ≤ x) || !fields ||
  (op == 0xD2 && ((!bit x 0 && desc 16) || (!bit x 1 && desc 32))) ||
  (op == 0xD3 && (bits (leAt b 16 8) 63 33 != 0 || desc 32 || leAt b (64 + 32) 1 / 8 != 0 || ((b.drop (64 + 33)).take 31).any (· != 0)))

/-- A matrix command from its record; `old` is the command it was saved from. -/
def restoreMCmd (rs : Tab Resv) (c id : Nat) (b : List Byte) (old : MCmd) : MCmd :=
  let n (o k : Nat) : Nat := leAt b o k
  let tile (o : Nat) : List Word := (List.range 256).map (fun i => BitVec.ofNat 32 (n (o + 4 * i) 4))
  let op := n 0 1
  let x := n 2 1
  let rng (base : Nat) : Nat := ((rangeOf rs base).map Resv.fmt).getD 0
  let regA := op == 0xD2 && bit x 0
  let regB := op == 0xD2 && bit x 1
  let conv := op == 0xD3 && (List.range 64).any (fun i => n (64 + i) 1 != 0)
  { old with
    id := id, op := op, d := n 1 1, x := x, cx := c, step := n 4 2
    aBase := BitVec.ofNat 64 (n 8 8), aDesc := BitVec.ofNat 64 (n 16 8), bBase := BitVec.ofNat 64 (n 24 8), bDesc := BitVec.ofNat 64 (n 32 8)
    aTile := if regA then tile 64 else [], bTile := if regB then tile 1088 else []
    shape := if conv then (b.drop 64).take 64 else []
    aFmt := if regA then tileFmt x else if op == 0xD2 then rng (n 8 8) else if conv then rng (n 64 8 % 2 ^ 22) else 0
    bFmt := if regB then tileFmt x else if op == 0xD2 || op == 0xD3 then rng (n 24 8) else 0
    status := none }

/-- The reservation records of an image, and whether each keeps the checks of R282. -/
def restoreResv (b : List Byte) (sram : Nat) : Nat → Tab Resv × Bool
  | 0 => ([], true)
  | n + 1 =>
    let (rs, ok) := restoreResv b sram n
    let r := (b.drop (64 + 16 * n)).take 16
    let id := n
    if !bit (leAt r 0 1) 0 then (rs, ok && leAt r 0 1 / 2 == 0 && leAt r 12 4 == 0)
    else
      (rs ++ [(id, ⟨leAt r 1 1, leAt r 2 2, leAt r 4 4, leAt r 8 4⟩)],
        ok && leAt r 0 1 / 2 == 0 && leAt r 12 4 == 0 &&
        (resvCause rs sram id (leAt r 1 1 + leAt r 2 2 * 65536) (leAt r 4 4) (leAt r 8 4)).isNone)

/-- The command that stands for one whose order is not known. -/
def MCmd.blank : MCmd where
  id := 0
  strand := 0
  lane := 0
  op := 0
  d := 0
  x := 0
  cx := 0
  aBase := 0
  aDesc := 0
  bBase := 0
  bDesc := 0
  aTile := []
  bTile := []
  shape := []
  aFmt := 0
  bFmt := 0
  step := 0
  status := none
  ord := Ord.empty
  wids := []

/-- Restores the matrix engine of a context's core from an image (R303): the state, and whether it is valid. A command
keeps the number by which an `mwait` waits for it (R298, R331). -/
def State.restoreMatrix (s : State) (c : Nat) (cx : Cx) (b : List Byte) : State × Bool :=
  let hold := bit (leAt b 0 1) 0
  let w := leAt b 4 4
  let headOk := leAt b 0 1 / 2 == 0 && decide (leAt b 1 1 ≤ 8) && leAt b 2 1 / 16 == 0 && leAt b 3 1 == 0 &&
    ((b.drop 10).take 54).all (· == 0) && bits w 31 28 == 0 && !bit w 23 && bits w 21 16 == 0 && (hold || leAt b 1 1 == 0)
  let status (s : State) : State := s.updCx c (fun x => { x with
    werr := leAt b 2 1, wstep := leAt b 8 2, mstkcode := bits w 27 24, mstk := bit w 22, mfstep := w % 65536 })
  let free (s : State) : State := s.setCore cx.core (fun y => if y.holder == some c then { y with holder := none, resv := [] } else y)
  if !hold then (if headOk then status (free s) else free s, headOk)
  else
    let (rs, rsOk) := restoreResv b cx.hdr.sram 16
    let recs := (List.range (leAt b 1 1)).map (fun n => (n, (b.drop (320 + 2112 * n)).take 2112))
    let ms := recs.map (fun r =>
      let old := cx.mheld.getD r.1 { MCmd.blank with id := s.nextId + r.1 }
      restoreMCmd rs c old.id r.2 old)
    let msOk := recs.all (fun r => !mcmdRes0 r.2) && ms.all (fun m => decide (0xD2 ≤ m.op) && decide (m.op ≤ 0xD6) &&
      (m.step == 0 || decide (m.step < (if m.op == 0xD2 || m.op == 0xD3 then m.steps else (m.region).2.2))))
    if headOk && rsOk && msOk then
      let s := (s.homeWrite (accLoc cx.core 0 0 0) ((b.drop 17216).take 262144)).homeWrite (scaleLoc cx.core 0) ((b.drop 279360).take 65536)
      ({ (status s).setCore cx.core (fun y => { y with holder := some c, resv := rs, mqueue := y.mqueue ++ ms }) with nextId := s.nextId + 8 }, true)
    else (free s, false)

/-! ## Restoring threads (R221, R330, R331) -/

/-- The history of a thread that moves: it goes on seeing what it saw. -/
def Ord.moved (o : Ord) : Ord := { o with must := addWrites o.must o.hist }

/-- The address and the state of lane k that a form-2 section saves (R330). -/
def lanePc (sec : List Byte) (k : Nat) : Nat := leAt sec (192 + 8 * k) 8
def laneCode (sec : List Byte) (k : Nat) : Nat := leAt sec (448 + k) 1

/-- Lane k of a restored warp; where it is parked at an instruction, `parkedLane` says what it waits for. -/
def restoreLane (st : Strand) (sec : List Byte) (full : Bool) (live away : Word) (k : Nat) : Lane :=
  let l := st.lane k
  let pc : Va := BitVec.ofNat 48 (if full then lanePc sec k else leAt sec 120 8)
  let b : Lane := { l with pc := pc, preds := BitVec.ofNat 7 (leAt sec (88 + k) 1), ord := l.ord.moved, waitCmds := [] }
  if l.st == .never then l
  else if !inMask live k then { b with st := .exited, act := none, flts := [] }
  else if inMask away k then { b with st := .away, act := none }
  else if full && laneCode sec k == 3 then
    (if l.st == .fault then { b with act := none } else { b with pc := l.pc, st := .ready, act := none })
  else { b with st := .ready, act := none }

/-- What lane k of a restored warp waits for at an instruction word, in a state in which it was parked there (R331):
`m` are the lanes that wait with it. A parity that came from the window is the one it waited with. -/
def parkedAct (st : Strand) (m : Word) (k code w : Nat) (was : Option EndAct) : Option (LaneSt × EndAct) :=
  let f := rrrOfWord w
  if !bit w 0 || !(hdOf (w / 4 % 256) w).ok then none
  else
    match code, w / 4 % 256 with
    | 1, 0xB2 => some (.join, .join (f.d.toNat % 16) (bit f.x.toNat 0))
    | 2, 0xC9 =>
      let parity : Bool := if f.a.toNat < 56 then bit (st.src k f.a).toNat 0 else
        match was with | some (.bar _ p _) => p | _ => false
      some (.bar, .bar (f.d.toNat + 64 * (f.x.toNat % 8)) parity (bit f.x.toNat 3))
    | 4, 0xB7 => some (.waggle, .wpop f.d.toNat (m = st.wholeMask))
    | _, _ => none

/-- The lanes that a form-2 section saves parked at an instruction: not ready, faulted, exited or away. -/
def parkedMask (sec : List Byte) : Word :=
  let live := BitVec.ofNat 32 (leAt sec 4 4) &&& ~~~BitVec.ofNat 32 (leAt sec 8 4)
  if leAt sec 1 1 < 2 then 0 else maskOf (fun k => inMask live k && [1, 2, 4].contains (laneCode sec k))

/-- Parks the lanes of a restored warp again, each at the instruction that `words` gives for its address. -/
def parkLanes (old st : Strand) (sec : List Byte) (words : List (Nat × Nat)) : Strand :=
  st.mapLanes (parkedMask sec &&& st.laneMask Lane.live) (fun k l =>
    let with_ := maskOf (fun j => inMask (parkedMask sec) j && laneCode sec j == laneCode sec k && lanePc sec j == lanePc sec k &&
      (st.lane j).lastRun == l.lastRun)
    match (words.find? (·.1 == lanePc sec k)).bind (fun w => parkedAct st with_ k (laneCode sec k) w.2 (old.lane k).act) with
    | some (c, a) => { l with st := c, act := some a }
    | none => l)

/-- A restored warp: its form, its errors as DETAILs of ILL_RES in order, and where it resumes (R330, R331). Reserved
bytes and bits of a header or a section are not looked at, and every window entry is restored with tag G
(notes/assumptions/58.md). -/
def restoreWarp (c : Cx) (old : Strand) (sec : List Byte) (nwq : Nat) (words : List (Nat × Nat)) : Strand × Nat × List Nat :=
  let form := leAt sec 1 1
  let full := decide (2 ≤ form)
  let launched := old.laneMask (fun l => l.st != .never)
  let live := BitVec.ofNat 32 (leAt sec 4 4) &&& launched
  let away := BitVec.ofNat 32 (leAt sec 8 4) &&& live
  let (regs, badReg) := restoreRegs c.hdr.vregs 0 (sec.drop 1552)
  let lcr := restoreLcr ((sec.drop 16).take 72)
  let pos := leAt sec 512 4
  let rp := leAt sec 516 4
  let mid := full && rp != 0
  let grp := BitVec.ofNat 32 (leAt sec 524 4)
  let grpOk := grp != 0 && (lanesOf grp).all (fun k => inMask live k && laneCode sec k == 0 && lanePc sec k == lanePc sec (lowest grp))
  let bad := (!full && live != 0 && decide (c.hdr.safe.length ≤ leAt sec 520 4)) || decide (nwq < pos) || (pos != 0 && !c.hdr.lead) ||
    (mid && !grpOk)
  let win := (List.range 8).map (fun n => (⟨.g ((List.range 32).map (fun k => BitVec.ofNat 32 (leAt sec (528 + 128 * n + 4 * k) 4))), 0, none⟩ : WinEnt))
  let st := { old with
    lanes := (List.range old.lanes.length).map (restoreLane old sec full live away)
    vregs := regs ++ List.replicate (56 - regs.length) (.u 0)
    js := (List.range 16).map (fun n => BitVec.ofNat 32 (leAt sec (128 + 4 * n) 4) &&& live)
    lcr := lcr.getD Lcr.zero
    popped := c.freed + min pos nwq
    run := if mid && !bad then some ⟨grp, rp % 32, rp / 32 % 16, win⟩ else none
    deferred := [] }
  (parkLanes old st sec words, form, (match badReg with | some r => [1 + r * 65536] | none => []) ++ (if lcr.isNone then [2] else []) ++ (if bad then [8] else []))

/-- The restored lead thread (R330). -/
def restoreLead (st : Strand) (sec : List Byte) : Strand :=
  let rp := leAt sec 460 4
  let win := (List.range 8).map (fun n => (⟨.u 0, BitVec.ofNat 64 (leAt sec (464 + 8 * n) 8), none⟩ : WinEnt))
  let st := { st with
    sregs := (List.range 56).map (fun n => BitVec.ofNat 64 (leAt sec (8 * n) 8))
    run := if rp = 0 then none else some ⟨1, rp % 32, rp / 32 % 16, win⟩ }
  st.setLane 0 (fun l => { l with pc := BitVec.ofNat 48 (leAt sec 448 8), preds := BitVec.ofNat 7 (leAt sec 456 1), ord := l.ord.moved })

/-- Raises ILL_RES in the lanes of a mask of a strand, each at a resume address (R104, R156, R253, R276, R303). -/
def State.illRes (s : State) (i : Nat) (m : Word) (detail : Nat) (resume : Nat → Va) : State :=
  s.updStrand i (fun st => st.mapLanes m (fun k l =>
    { l with st := .fault, act := none, pc := resume k, flts := l.flts ++ [s.mkFault st k 0x02 (resume k) 0 0 detail false] }))

/-- Whether an away record is valid for a lane (R276). -/
def awayOk (b : List Byte) (k : Nat) : Bool :=
  leAt b 0 1 == k && decide (leAt b 2 1 < 64) && decide (leAt b 2 1 + leAt b 1 1 / 16 % 8 ≤ 55) && leAt b 1 1 % 16 != 0 &&
  decide (leAt b 3 1 < 128) && decide (leAt b 4 2 / 16 < 80) && leAt b 6 2 == 0 && leAt b 14 2 == 0 && (b.drop 48).all (· == 0)

/-- The unit an away record names. -/
def awayUnit (b : List Byte) : Nat :=
  let d := leAt b 4 2 / 16
  if d < 64 then 16 * d + leAt b 4 2 % 16 else 1024 + 16 * (d - 64) + leAt b 4 2 % 16

/-- Sends a restored forager to its host, after the continuations queued there, or places it in its home record: where
the host is outside the slice, has no slot or has a full queue (R261, R277). -/
def State.resend (s : State) (j u home fn : Nat) : State :=
  let s := s.seatAll u
  let ours := if u < 1024 then s.coreOpen fn u else (s.channels fn).any (fun ch => unitOfLoc (ch * 2 ^ 30) == u)
  if ours && u != home && !s.recalling u && s.slotFree u fn && decide ((s.arrivalsOf u).length < 32) then (s.setArrivals u id 1).seat j u
  else s.seatHome j

/-- Restores the forager of lane k of strand i from its record (R276, R277): a record with FAULT set stays in its home
record, where its fault waits or, acknowledged meanwhile, is over. -/
def State.restoreAway (s : State) (cx : Cx) (i k : Nat) (b : Option (List Byte)) : State :=
  match s.strand i with
  | none => s
  | some st =>
    let old := s.foragerOf i k
    match b with
    | some b =>
      if awayOk b k then
        let j := (old.map (·.1)).getD s.nextId
        let first := leAt b 2 1
        let count := leAt b 1 1 / 16 % 8 + 1
        let was := match old with | some (_, g) => g.lane 0 | none => { st.lane k with flts := [], posted := [] }
        let stays := bit (leAt b 1 1) 7
        let faulted := stays && (was.st == .fault || old.isNone)
        let l : Lane := { was with
          pc := if stays && !faulted then was.pc else BitVec.ofNat 48 (leAt b 8 8), st := if faulted then .fault else .ready, act := none
          preds := BitVec.ofNat 7 (leAt b 3 1), intrap := (st.lane k).intrap, ord := was.ord.moved }
        let f : Forager := {
          home := i, lane := k, first := first, count := count, hop := leAt b 1 1 % 16, unit := some cx.core, slot := none, queued := false
          dest := none, recalled := faulted, written := 0 }
        let g : Strand := match old with | some (_, g) => g | none => { Strand.at .F st.cx 0 1 with wid := st.wid }
        let g := { g with
          lanes := [l], fg := some f
          sregs := (List.range 56).map (fun n => if first ≤ n ∧ n < first + count then BitVec.ofNat 64 (leAt b (16 + 4 * (n - first)) 4) else 0) }
        let s := { s.putStrand j g with nextId := s.nextId + 1 }
        if stays then s.seatHome j else s.resend j (awayUnit b) cx.core cx.fn
      else
        let s := match old with | some (j, _) => { s with strands := tdel s.strands j } | none => s
        s.illRes i (maskOf (· == k)) (4 + k * 65536) (fun _ => BitVec.ofNat 48 (leAt b 8 8))
    | none =>
      let s := match old with | some (j, _) => { s with strands := tdel s.strands j } | none => s
      s.illRes i (maskOf (· == k)) (4 + k * 65536) (fun k => (st.lane k).pc)

/-- Gives each parked lane its records that are not with the fault queue already (R331). -/
def State.restoreFaults (s : State) (cx : Cx) (rs : List FaultRec) : State :=
  cx.strands.foldl (fun s i =>
    match s.strand i with
    | none => s
    | some st =>
      (List.range st.lanes.length).foldl (fun s k =>
        let p := s.lanePlace i k (st.lane k)
        match s.strand p.1 with
        | none => s
        | some w =>
          let l := w.lane p.2
          let mine := rs.filter (fun r => if st.ctx == .D then r.ctx == 1 else r.ctx != 1 && r.wid == st.wid && r.lane == k)
          if l.st != .fault || mine.isEmpty then s
          else
            let ill := l.flts.filter (fun r => r.code == 2 && !mine.any (fun q => q.code == 2 && q.pc = r.pc && q.detail = r.detail))
            let fresh := l.flts.isEmpty && !s.waiting cx.fn p.1 p.2 l && w.pends.all (fun q => q.caps.all (·.lane != p.2))
            let n := if fresh then mine.length else (l.flts.filter (fun r => !ill.contains r)).length
            s.updStrand p.1 (fun w => w.setLane p.2 (fun l => { l with flts := mine.drop (mine.length - n) ++ ill }))) s) s

/-- What a restored warp does next: its restore routine, its saved place, or ILL_RES (R331). -/
def State.restoreGo (s : State) (cx : Cx) (area i form : Nat) (sec : List Byte) (errs : List Nat) : State :=
  match s.strand i with
  | none => s
  | some st =>
    let m := st.laneMask (fun l => l.live && l.st != .away && l.st != .fault)
    let pc : Va := BitVec.ofNat 48 (leAt sec 120 8)
    let next : Va := if form = 0 then pc + 4 else pc
    match errs with
    | e :: _ => (s.updStrand i (fun st => { st with run := none })).illRes i m e (fun k => if form < 2 then next else (st.lane k).pc)
    | [] =>
      if 2 ≤ form || m = 0 then s
      else
        let e := cx.hdr.safe.getD (leAt sec 520 4) (0, 0, 0)
        s.startRoutine i (.restore next.toNat) (BitVec.ofNat 48 (cx.image.toNat + e.2.2)) area

/-- The warp sections one after another by their LEN. -/
def warpSections : Nat → List Byte → List (List Byte)
  | 0, _ => []
  | n + 1, b => b :: warpSections n (b.drop (leAt b 12 4))

/-- The bytes of the warp sections of a save area, from the bytes before its software part. -/
def areaSections (warps : Nat) (b : List Byte) : List (List Byte) :=
  warpSections warps (if leAt b 32 4 = 0 then [] else b.drop (leAt b 32 4))

/-- The addresses at which a save area has lanes parked at an instruction. -/
def parkedPcs (secs : List (List Byte)) : List Nat := (secs.flatMap (fun sec => (lanesOf (parkedMask sec)).map (lanePc sec))).eraseDups

/-- Reads a halfword of code, as a walk made without an access. -/
def State.codeHalf (s : State) (die f va : Nat) : State × Got (List Byte) :=
  match s.translate none die f va { x := true, quiet := true } false with
  | (s, .stop x) => (s, .stop x va)
  | (s, .wait) => (s, .wait)
  | (s, .host a) => (s, .ok (s.homeRead a 2))
  | (s, .dram a) => match s.homeRefuses f a 2 false with | some x => (s, .stop x va) | none => (s, .ok (s.homeRead a 2))

/-- The instruction words at some addresses, those that can be read; an error is the state in which it waits for the
host. -/
def State.codeWords (s : State) (die f : Nat) : List Nat → Except State (State × List (Nat × Nat))
  | [] => .ok (s, [])
  | pc :: pcs =>
    match s.codeHalf die f pc with
    | (s, .wait) => .error s
    | (s, .stop _ _) => s.codeWords die f pcs
    | (s, .ok lo) =>
      match s.codeHalf die f (pc + 2) with
      | (s, .wait) => .error s
      | (s, .stop _ _) => s.codeWords die f pcs
      | (s, .ok hi) => (s.codeWords die f pcs).map (fun r => (r.1, (pc, leNat (lo ++ hi)) :: r.2))

/-- Restores a context that has its place on a core from the bytes of its save area (R331). -/
def State.restoreFrom (s : State) (c : Nat) (cx : Cx) (b flts : List Byte) (words : List (Nat × Nat)) : State :=
  let off (n : Nat) : Nat := leAt b (32 + 4 * n) 4
  let sec (n : Nat) : List Byte := if off n = 0 then [] else b.drop (off n)
  let area := cx.area
  let lead := cx.lead.bind s.strand
  let nwq := if lead.isNone then 0 else leAt (sec 4) 458 2
  let s := if cx.hdr.sram = 0 then s else s.homeWrite (sramLoc cx.core cx.sramBase) ((sec 6).take cx.hdr.sram)
  let (bars, badBar) := restoreBars (sec 1) cx.bars
  let (s, matOk) := s.restoreMatrix c cx (sec 5)
  let bad := (match badBar with | some n => [3 + n * 65536] | none => []) ++ (if matOk then [] else [5])
  let s := s.updCx c (fun x => { x with
    bars := bars, savedForm := none, mheld := []
    fstat := (List.range 8).map (fun n => if n < 4 then BitVec.ofNat 32 (leAt b (80 + 4 * n) 4) else x.fstat.getD n 0)
    waggle := (List.range nwq).map (fun n => BitVec.ofNat 64 (leAt (sec 4) (528 + 8 * n) 8))
    waggleOrd := (List.range nwq).map (fun n => (x.waggleOrd.getD n Ord.empty)) })
  let warps := cx.strands.filter (fun i => ((s.strand i).map Strand.ctx) == some .L)
  let step1 (a : State × List (Nat × Nat × List Byte × List Nat)) (e : Nat × List Byte) : State × List (Nat × Nat × List Byte × List Nat) :=
    match a.1.strand e.1 with
    | none => a
    | some st => let (st, form, errs) := restoreWarp cx st e.2 nwq words; (a.1.putStrand e.1 st, a.2 ++ [(e.1, form, e.2, errs)])
  let (s, ws) := (warps.zip (areaSections warps.length b)).foldl step1 (s, [])
  let s := match cx.lead with | some i => s.updStrand i (fun st => restoreLead st (sec 4)) | none => s
  let aways := ws.flatMap (fun w => match s.strand w.1 with
    | some st => ((List.range 32).filter (fun k => (st.lane k).st == .away)).map (fun k => (w.1, k))
    | none => [])
  let away (n : Nat) : Option (List Byte) := if n < leAt b 30 2 then some (((sec 3).drop (64 * n)).take 64) else none
  let badAways (i : Nat) : List Nat :=
    (aways.zipIdx.filter (fun e => e.1.1 == i && !(away e.2).any (awayOk · e.1.2))).map (fun e => 4 + e.1.2 * 65536)
  let s := aways.zipIdx.foldl (fun s e => s.restoreAway cx e.1.1 e.1.2 (away e.2)) s
  let s := s.restoreFaults cx ((List.range (leAt b 68 2)).map (fun n => FaultRec.ofBytes ((flts.drop (64 * n)).take 64)))
  let s := ws.foldl (fun s w => s.restoreGo cx area w.1 w.2.1 w.2.2.1 (bad ++ w.2.2.2 ++ (if w.2.1 < 2 then badAways w.1 else []))) s
  let s := if s.strands.any (fun e => e.2.cx == c && (match e.2.routine with | .restore _ => true | _ => false)) then s else s.freeArea c
  (cx.strands.foldl State.settle s).evalPops c

/-- Reads the save area of a context that has its place and restores it (R331, R428); an error is the state in
which it waits for the host. -/
def State.restoreOne (s : State) (c : Nat) : Except State State :=
  match s.cx c with
  | none => .ok s
  | some cx =>
    let die := dieOfUnit cx.core
    let area := cx.area
    match s.areaRead die cx.fn area 256 with
    | (s, .wait) => .error s
    | (s, .stop x a) => .ok (s.abandon c x a)
    | (s, .ok hd) =>
      match s.areaRead die cx.fn area (max 256 (leAt hd 60 4)) with
      | (s, .wait) => .error s
      | (s, .stop x a) => .ok (s.abandon c x a)
      | (s, .ok b) =>
        match s.areaRead die cx.fn (area + leAt hd 72 4) (64 * leAt hd 68 2) with
        | (s, .wait) => .error s
        | (s, .stop x a) => .ok (s.abandon c x a)
        | (s, .ok fl) =>
          let warps := (cx.strands.filterMap s.strand).filter (fun st => st.ctx == .L)
          (s.codeWords die cx.fn (parkedPcs (areaSections warps.length b))).map (fun r => r.1.restoreFrom c cx b fl r.2)

/-- CONTEXT_RESTORE (R313, R331, R428): the dispatch goes to this saved context, which takes a compatible core;
the members of its gang are restored with it. -/
def execContextRestore (cx core base : Nat) (s : State) : Res :=
  .next (
    match s.dispatchPick with
    | none => s
    | some t =>
      match s.cx cx with
      | none => s
      | some c =>
        if !t.saved || t.id != cx then s
        else
          match (s.occupy cx core base).bind (fun s => s.occupyAll ((s.savedGang cx c).drop 1)) with
          | none => s
          | some t =>
            match (s.savedGang cx c).foldl (fun (a : Except State State) i => a.bind (fun s => s.restoreOne i)) (.ok t) with
            | .ok t => t.countDisp c.fn c.prio
            | .error t => s.takeWalks t)

/-- A bank from its record; the residues are those of the restored values (R363), and the commands that other instances
have issued to it stay in its buffer (R343). -/
def restoreBank (b : List Byte) (buf : List CCmd) : Bank :=
  let ws (o n : Nat) : List Word := (List.range n).map (fun i => BitVec.ofNat 32 (leAt b (o + 4 * i) 4))
  { x := (List.range 16).map (fun r => ws (64 * r) 16), a := (List.range 4).map (fun r => ws (1024 + 64 * r) 16)
    active := ws 1280 256, shadow := ws 2304 256, faulted := BitVec.ofNat 64 (leAt b 3328 8), buf := buf }

/-- COMB_INSTANCE_RESTORE (R331, R337, R363, R428): the dispatch goes to this saved instance, which takes its channel
again; an invalid CMODE or image
leaves it on all banks of its own channel with ILL_RES at its PC. -/
def execCombInstanceRestore (inst : Nat) (s : State) : Res :=
  .next (
    match s.cx inst, tget s.insts inst with
    | some cx, some i =>
      match s.instHome inst cx, s.strand i.strand with
      | some chan, some st =>
        if !s.dispatchPick.any (fun t => t.saved && t.id == inst) then s
        else
          let unit := 1024 + chan / 64 * 16 + chan % 64 / 4
          match s.areaRead (dieOfUnit unit) cx.fn cx.area 54784 with
          | (t, .wait) => s.takeWalks t
          | (s, .stop x a) => s.abandon inst x a
          | (s, .ok b) =>
            let w := leAt b 484 4
            let m := leAt b 482 2
            let zero := leAt b 3 1 == 0 && leAt b 12 4 == 0 && leAt b 480 1 / 128 == 0 && leAt b 481 1 / 2 == 0 && m / 2 ^ 14 == 0 &&
              ((b.drop 488).take 24).all (· == 0) && (List.range 16).all (fun k => ((b.drop (512 + 3392 * k + 3336)).take 56).all (· == 0))
            let mode := (s.channels cx.slice)[m % 1024]?
            let ok := zero && (match mode with | some ch => 1024 + ch / 64 * 16 + ch % 64 / 4 == unit | none => false)
            let s := (List.range 16).foldl (fun s k => s.setBank chan k (fun y => restoreBank ((b.drop (512 + 3392 * k)).take 3392) y.buf)) s
            let s := { s with insts := tset s.insts inst { i with
              chan := chan, all := if ok then bit (leAt b 481 1) 0 else true, modeChan := if ok then mode.getD chan else chan
              modeBank := if ok then bits m 13 10 else 0, stk := bit w 19, stkcode := bits w 23 20, bank := bits w 17 14, pch := bits w 13 8 } }
            let s := s.updCx inst (fun x => { x with resident := true, savedForm := none, core := unit })
            let s := s.updStrand i.strand (fun st => { (st.setLane 0 (fun l => { l with
                pc := if l.st == .ready || l.st == .fault then BitVec.ofNat 48 (leAt b 472 8) else l.pc
                preds := BitVec.ofNat 7 (leAt b 480 1), ord := l.ord.moved })) with
              sregs := (List.range 56).map (fun n => BitVec.ofNat 64 (leAt b (24 + 8 * n) 8)) })
            let s := if ok || !(st.lane 0).live then s else s.illRes i.strand 1 8 (fun _ => BitVec.ofNat 48 (leAt b 472 8))
            ((s.freeArea inst).settle i.strand).countDisp cx.fn cx.prio
      | _, _ => s
    | _, _ => s)

end Sys2Proof.Machine
end

