-- ==== Sys2Proof/Machine/Auto.lean ====
section
/-! DEFINITION. What the hardware does next of itself when the agenda is empty: one of the steps that wait
to happen, taken in turn by the clock (notes/assumptions/2.md). -/
namespace Sys2Proof.Machine

/-- The step that lets a stalled strand try again. -/
def State.grantFor (s : State) (i : Nat) (st : Strand) : List Instr :=
  let home := s.homeUnit st
  match st.stall with
  | none => []
  | some .entry | some .fetch | some .intake => []
  | some .fence => [.fenceWaitEnd i]
  | some .block => [.generalBlockGrant home]
  | some .sfu => [.sfuQueueAdmit home]
  | some .miss => [.missBufferGrant (s.unitOf st)]
  | some .engine | some .cmds => [.engineQueueRoom (dieOfUnit home)]
  | some .homeRec => [.homeRecordGrant st.cx]
  | some .holder => [.engineHolderFree home]
  | some .matrix => [.matrixQueueRoom home]
  | some .comb => (match tget s.insts st.cx with | some x => [.combBufferRoom x.modeChan] | none => [])
  | some .waggle => [.waggleEntryFree home]

/-- What a thread waits for: results that land, its faults' delivery, its travels. Results a peer answers come
from outside. -/
def State.strandSteps (s : State) (i : Nat) (st : Strand) : List Instr :=
  s.grantFor i st ++
  st.pends.filterMap (fun p =>
    let cs := p.caps.filter (fun c => bits c.ptr.toNat 63 60 != 4)
    if cs.isEmpty then none else some (.classLResultLand i p.id (maskOf (fun k => cs.any (fun c => c.lane == k))) 0 0)) ++
  (if (s.func (s.fnOf st)).replays.any (fun r => r.strand == i && r.go) then [.missBufferGrant (s.unitOf st)] else []) ++
  (if st.lanes.any (fun l => !l.flts.isEmpty) then [.faultDelivery i] else []) ++ (if decide (64 ≤ st.passed) && s.canIssue i st then [.issueStarvation i] else []) ++
  (match st.fg with
   | some f => (if f.dest.isSome then [.continuationArrival i] else []) ++ (if (st.lane 0).act == some .home then [.homeReturn i] else [])
   | none => [])

/-- What a write waits for. -/
def orderSteps (s : State) : List Instr :=
  (s.inflight.filter (fun w => !isPeer w.loc)).map (fun w => .applyAtHome w.id 0) ++ (s.applied.filter (fun w => !w.all)).map (fun w => .viewUpdate w.id .core 80)

/-- What a die's walkers and engines wait for. -/
def State.dieSteps (s : State) (die : Nat) (d : Die) : List Instr :=
  (match d.startWalks.misses.find? Miss.walking with | some m => [.pageWalk die m.fn] | none => []) ++ (if s.halvingDue die then [.usedHalving die] else []) ++
  ((List.range 20).filter (fun e => (tget d.engines e).isNone && !(d.queued e).isEmpty)).map (fun e => .engineLeaseGrant die e) ++
  d.engines.flatMap (fun e =>
    let gcm := e.2.cmd.any (fun i => d.queue.any (fun c => c.id == i && c.op == 0xC3 && c.started))
    (if gcm then [.gcmCounterCheck die e.1, .beatLand die e.1, .gcmTagVerify die e.1] else [.beatLand die e.1]) ++
    (if e.2.since + e.2.len ≤ s.clock && e.2.beat then [.leaseExpiry die e.1] else []))

/-- What a core's arrival queue and matrix engine wait for. -/
def coreSteps (core : Nat) (c : Core) : List Instr :=
  (if c.arrivals.isEmpty then [] else [.arrivalQueueAccept core]) ++
  (if c.mqueue.isEmpty then [] else [.matrixStep core, .matrixCommandEnd core])

/-- What a workgroup context waits for. -/
def cxSteps (c : Nat) (x : Cx) : List Instr :=
  (if x.resident && !x.started then [.workgroupStart c] else []) ++ (if x.resident && x.started then [.workgroupComplete c] else []) ++
  (if x.preempt.isSome then [.saveAreaWrite c] else []) ++ (if x.preempt.isSome && !x.forced then [.preempttoExpiry c] else [])

/-- What the walker dispatches next (R309, R310, R331), after the request that a node which finds no room makes (R326). -/
def State.walkerSteps (s : State) : List Instr :=
  (if s.starved.isSome then [.dispatchNode 0] else []) ++
  match s.dispatchPick with
  | none => []
  | some t =>
    if t.saved then
      match s.cx t.id with
      | none => []
      | some x => if 1024 ≤ x.core then [.combInstanceRestore t.id] else ((s.cores_ x.slice).filterMap (fun k => (s.sramFit k x.hdr.sram).map (fun b => Instr.contextRestore t.id k b))).take 16
    else
      match tget s.nodes t.id with
      | none => []
      | some n =>
        if n.kind == 0 && n.startedAt.isSome then
          (match s.place? n.slice n.hdr with | some (c, b) => [.workgroupAdmission t.id c b] | none => [])
        else if n.kind == 2 then (((List.range n.nwg).filter (s.instReady t.id n)).map (.combInstanceStart t.id)).take 1
        else if n.kind == 1 then (((List.range 64).filter (s.poolOpen n.slice)).map .dispatchNode).take 1
        else [.dispatchNode 0]

/-- What a node waits for. -/
def nodeSteps (i : Nat) (n : Node) : List Instr := if n.st == .done then [.nodeComplete i] else []

/-- What a function's rings wait for. -/
def funcSteps (f : Nat) (x : Func) : List Instr :=
  (if x.heldLaunch.isEmpty then [] else [.walkerIntakeDrain f]) ++ (if x.fqWait.isEmpty || x.fqStuck then [] else [.faultQueueWrite f]) ++ (if x.sqHead != bits (x.reg 0x01A) 47 32 then [.submissionRingRead f] else [])

/-- The steps of the hardware that may happen now in a state, as instructions. -/
def State.candidates (s : State) : List Instr :=
  s.strands.flatMap (fun e => s.strandSteps e.1 e.2) ++ orderSteps s ++ s.dies.flatMap (fun e => s.dieSteps e.1 e.2) ++
  s.cores.flatMap (fun e => coreSteps e.1 e.2) ++ s.units.flatMap (fun e => if e.2.arrivals.isEmpty then [] else [.arrivalQueueAccept e.1]) ++
  ((s.banks.filter (fun e => !e.2.buf.isEmpty)).map (fun e => e.1 / 16)).eraseDups.map (fun c => .combWaveStart c) ++
  s.cxs.flatMap (fun e => cxSteps e.1 e.2) ++ s.nodes.flatMap (fun e => nodeSteps e.1 e.2) ++ s.walkerSteps ++
  s.funcs.flatMap (fun e => funcSteps e.1 e.2) ++
  (s.intake.filterMap (fun n => (tget s.nodes n).map Node.fn)).eraseDups.map (fun f => .walkerIntakeDrain f)

/-! ## Issue ports (R62, R78, R268, R339) -/

/-- The issue port of a strand: the slots of unit u are port 2u, the lead port of core u is 2u + 1; a stack core has
the one port 2u. -/
def State.portOf (s : State) (st : Strand) : Nat := 2 * s.unitOf st + (if st.ctx == .D then 1 else 0)

/-- The first entry that no other goes before. -/
def firstBy (before : Nat × Strand → Nat × Strand → Bool) : List (Nat × Strand) → Option (Nat × Strand)
  | [] => none
  | e :: es => some (es.foldl (fun a b => if before b a then b else a) e)

/-- The path of a slot warp whose turn it is before another's: one in a run, then the one that has waited longest, then
the lowest PC (R62, R268). -/
def pathFirst (a b : Nat × Strand) : Bool :=
  let last (e : Nat × Strand) : Nat := (e.2.lane 0).lastRun
  (a.2.run.isSome && b.2.run.isNone) || (a.2.run.isSome == b.2.run.isSome &&
    (decide (last a < last b) || (last a == last b && decide ((a.2.lane 0).pc.toNat < (b.2.lane 0).pc.toNat))))

/-- The party of a strand on its unit's port: 2i for strand i, 2w + 1 for slot warp w (R339). -/
def partyOf (e : Nat × Strand) : Nat := match e.2.fg.bind Forager.slot with | some n => 2 * (n / 32) + 1 | none => 2 * e.1

/-- The next number of a list after one, in cyclic order. -/
def nextAfter (h : Nat) (l : List Nat) : Option Nat := ((l.filter (decide <| h < ·)).min?).or l.min?

/-- What the slots of a core pick: a warp passed over 64 times, the one passed over most often of several
(notes/assumptions/61.md), else the one whose run became ready first; in a slot warp, the path whose turn it is (R62, R63,
R268). -/
def slotPick (w : List (Nat × Strand)) : Option (Nat × Strand) :=
  match (firstBy (fun a b => decide (b.2.passed < a.2.passed)) (w.filter (fun e => decide (64 ≤ e.2.passed)))).or
      (firstBy (fun a b => decide (a.2.readyAt < b.2.readyAt)) w) with
  | some e => if (e.2.fg.bind Forager.slot).isSome then firstBy pathFirst (w.filter (fun m => m.2.fg.isSome && partyOf m == partyOf e)) else some e
  | none => none

/-- Whether a strand is in the middle of a run for the party that holds its port: one that has stalled since has passed
the port on, though its stall may have ended (R78, R339). -/
def holds (hold : Option Nat) (e : Nat × Strand) : Bool := hold == some (partyOf e) && e.2.run.isSome && e.2.waits.isNone

/-- What a port goes to that passes at run ends and stalls: the party that holds it with a run in progress, else the
next in round-robin order (R78). -/
def turnPick (hold : Option Nat) (w : List (Nat × Strand)) : Option (Nat × Strand) :=
  match firstBy pathFirst (w.filter (holds hold)) with
  | some e => some e
  | none => (nextAfter (hold.getD 0) (w.map partyOf)).bind (fun p => firstBy pathFirst (w.filter (fun e => partyOf e == p)))

/-- What a stack core's port goes to: its holder's run, else a party of the slice with the fewest port cycles for its
share (R339). -/
def State.stackPick (s : State) (u : Nat) (w : List (Nat × Strand)) : Option (Nat × Strand) :=
  let sc := s.score u
  if w.any (holds sc.turn) then turnPick sc.turn w
  else
    let turn (e : Nat × Strand) : Bool := firstBy pathFirst (w.filter (fun m => partyOf m == partyOf e)) == some e
    let offers := w.filter turn
    let slice (e : Nat × Strand) : Nat := s.fnOf e.2
    let before (a b : Nat × Strand) : Bool :=
      let x := tgetD sc.used (slice a) 0 * (s.slice (slice b)).stackw
      let y := tgetD sc.used (slice b) 0 * (s.slice (slice a)).stackw
      decide (x < y) || (x == y && decide (slice a < slice b))
    match firstBy before offers with
    | some e => turnPick (tget sc.last (slice e)) (offers.filter (fun m => slice m == slice e))
    | none => none

/-- The strands that may issue now. -/
def State.readies (s : State) : List (Nat × Strand) := s.strands.filter (fun e => s.canIssue e.1 e.2)

/-- What a port picks. -/
def State.portPick (s : State) (port : Nat) : Option (Nat × Strand) :=
  let w := s.readies.filter (fun e => s.portOf e.2 == port)
  if port % 2 = 1 then turnPick ((s.core (port / 2)).leadHold.map (2 * ·)) w
  else if 2048 ≤ port then s.stackPick (port / 2) w
  else slotPick w

/-- The strand that issues next: the ports take turns, after the one that issued last. -/
def State.nextStrand (s : State) : Option Nat :=
  (nextAfter (((s.strand s.cur).map s.portOf).getD 0) (s.readies.map (fun e => s.portOf e.2))).bind (fun p => (s.portPick p).map (·.1))

/-- Strand i has its port's turn: the slots count what they pass over (R62), the other ports keep their holder. On a
stack core the first cycle of a turn counts for its slice, whose next turn is the next party's (R339). -/
def State.takeTurn (s : State) (i : Nat) : State :=
  match s.strand i with
  | none => s
  | some st =>
    let u := s.unitOf st
    let port := s.portOf st
    if port % 2 = 1 then s.setCore u (fun c => { c with leadHold := some i })
    else if 1024 ≤ u then
      let sc := s.score u
      { s with units := tset s.units u { sc with
          turn := some (partyOf (i, st))
          last := tset sc.last (s.fnOf st) (partyOf (i, st))
          used := if holds sc.turn (i, st) then sc.used else tbump sc.used (s.fnOf st) 1 } }
    else
      { s with strands := s.strands.map (fun (e : Nat × Strand) => (e.1,
          if e.1 == i then { e.2 with passed := 0 }
          else if s.portOf e.2 == port && s.canIssue e.1 e.2 then { e.2 with passed := e.2.passed + 1 } else e.2)) }

/-! ## What a cycle settles before anything issues -/

/-- Ends the runs of the slots of an issue group that stand at one instruction count with different outcomes: a
divergent branch splits it (R64, R268). -/
def State.regroup (s : State) : State :=
  let split (e : Nat × Strand) : Bool := match e.2.fg with
    | some g =>
      g.grp != 0 && e.2.run.isSome && decide (0 < e.2.runLen) &&
      (let ms := (s.slotWarp g).filter (fun m => (m.2.fg.map Forager.grp) == some g.grp && m.2.run.isSome)
       ms.all (fun m => m.2.runLen == e.2.runLen) &&
       ms.any (fun m => (m.2.lane 0).pc != (e.2.lane 0).pc || (m.2.fg.map Forager.took) != some g.took))
    | none => false
  let ends := (s.strands.filter split).map (·.1)
  ends.foldl State.settle (ends.foldl State.markRunEnd s)

/-- Whether the walk of a page that a strand's fetch waits for, or an ATS translation of its function, is under way. -/
def State.stillFetching (s : State) (st : Strand) : Bool :=
  let u := s.unitOf st
  let f := s.fnOf st
  let pc := (st.lane (lowest st.group)).pc
  s.awaits u f pc.toNat || s.awaits u f (pc + 2).toNat ||
  ((s.die (dieOfUnit u)).ats ++ (s.die 80).ats).any (fun a => a.fn == f && (a.reply.isNone || a.pri))

/-- Strands that waited for a translation try again, every 64 cycles at the latest, so that no other's translation keeps
them (R63), and a strand that becomes ready notes when (R62). -/
def State.stamp (s : State) : State :=
  let again := s.clock % 64 == 0
  let wake (st : Strand) : Strand := if st.stall == some .fetch && (again || !s.stillFetching st) then { st with stall := none } else st
  let s := { s with strands := tmap s.strands wake }
  { s with strands := s.strands.map (fun (e : Nat × Strand) => (e.1,
      if s.canIssue e.1 e.2 then (if e.2.readyAt == 0 then { e.2 with readyAt := s.clock } else e.2)
      else if e.2.run.isNone then { e.2 with readyAt := 0 } else e.2)) }

/-- A cycle in which a party holds a stack core's port counts for the slice it runs for (R339). -/
def State.charge (s : State) : State :=
  { s with units := s.units.map (fun (e : Nat × SCore) =>
      match s.strands.find? (fun m => s.unitOf m.2 == e.1 && holds e.2.turn m) with
      | some m => (e.1, { e.2 with used := tbump e.2.used (s.fnOf m.2) 1 })
      | none => e) }

/-- Whether a first warp has issued an instruction. -/
def Strand.underway (st : Strand) : Bool :=
  decide (0 < st.runLen) || st.runEnd || st.lanes.any (fun l => l.lastRun != 0 || (l.st != .ready && l.st != .never))

/-- A workgroup whose first warp has issued its first instruction in the step before has begun: this is its start, from
which the next one of its node on the die is staggered (R310). -/
def State.begin (s : State) : State :=
  let starts (e : Nat × Cx) : Bool := e.2.started && !e.2.begun && s.strands.any (fun w => w.2.cx == e.1 && w.2.ctx == .L && w.2.fg.isNone && w.2.wid == 0 && w.2.underway)
  (s.cxs.filter starts).foldl (fun s e =>
    (s.updCx e.1 (fun c => { c with begun := true })).updNode e.2.node (fun n => { n with dieStart := tset n.dieStart (e.2.core / 16) s.clock })) s

/-- Log records that wait for a translation are tried again (R386). -/
def State.logAgain (s : State) : State := if s.mg.hflWait.isEmpty then s else s.logWrite s.mg.hflWait

/-- The clock goes on by one. -/
def State.tick (s : State) : State := { s.begin with clock := s.clock + 1 }.logAgain.regroup.charge.stamp

/-- The foragers of one function at one PC in a slot warp form the group of a new run (R60, R268). -/
def State.formGroup (s : State) (i : Nat) : State :=
  match s.strand i with
  | none => s
  | some st =>
    match st.fg with
    | none => s
    | some g =>
      if g.slot.isNone || st.run.isSome then s
      else
        let joins (e : Nat × Strand) : Bool := s.canIssue e.1 e.2 && s.fnOf e.2 == s.fnOf st && (e.2.lane 0).pc == (st.lane 0).pc
        let ms := ((s.slotWarp g).filter joins).map (·.1)
        ms.foldl (fun t j => t.updStrand j (fun m => { m with
          run := some ⟨1, 0, 0, []⟩, fg := m.fg.map (fun h => { h with grp := s.nextId }) })) { s with nextId := s.nextId + 1 }

end Sys2Proof.Machine
end

