-- ==== Sys2Proof/Machine/Control.lean ====
section
/-! DEFINITION. Control instructions: branches, exit, joins, trail, waitr, vote, the waggle queue, brk (R74 to
R90), `trapi` and `rti` (R335, R336), and the steps that end a stall. -/
namespace Sys2Proof.Machine

/-! ## Branches (R81) -/

/-- The link registers of a context. -/
def linkReg (c : Ctx) : Nat := if c.wide then 55 else 54

/-- One branch, call or jump: `reg` reads its target from pair a, else it lies `off` bytes on; `link` writes
the link, which the VREGS of a kernel do not check, since no field names it (R92, notes/assumptions/61.md). Where guard
results or targets differ the run ends (R64), or a bound warp traps (R77). -/
def branch (reg link : Bool) (off : Int) (s : State) (x : Iss) : Act :=
  let a := x.h.f.a.toNat
  let space := if reg then maskOf (fun k => inMask x.g k && bits64 (x.st.pair k a) 63 60 != 0) else 0
  let odd := if reg then maskOf (fun k => inMask x.g k && !inMask space k && bit (x.st.pair k a).toNat 0) else 0
  let good := x.g &&& ~~~space &&& ~~~odd
  let target (k : Nat) : Va := if reg then (x.st.pair k a).setWidth 48 else x.pc + BitVec.ofInt 48 off
  let next (k : Nat) : Va := if inMask good k then target k else x.pc + 4
  let stay := lanesOf (x.m &&& ~~~space &&& ~~~odd)
  let same := stay.all (fun k => next k = next (stay.headD 0) && inMask good k == inMask good (stay.headD 0))
  if x.st.bound && !same then .done { s := s.trapLanes x.i x.m 0x11 x.pc 4 0 }
  else
    let ret : W64 := (x.pc + 4).setWidth 64
    let st := if link then x.st.write64 good (linkReg x.st.ctx) (fun _ => ret) (some ret) else x.st
    let s := s.putStrand x.i st
    let s := if space = 0 then s else s.trapLanes x.i space 0x07 x.pc 4 0
    let s := if odd = 0 then s else s.trapLanes x.i odd 0x06 x.pc 4 0
    .done { s := s, dst := if link then .reg (linkReg x.st.ctx) else .nothing
            pcs := (lanesOf good).map (fun k => (k, target k)), ends := !same }

/-- The registers a link writes, in every context. -/
def linkRegs : List Nat := [54, 55]

def execBr (f : Br) (s : State) : Res := .next (s.issue (hdOf 0xA8 (brWord 0xA8 f)) (branch false false (2 * f.off.toInt)))
def execBrL (f : Brl) (s : State) : Res := .next (s.issue (hdOf 0xA9 (brlWord 0xA9 f)) (branch false false (2 * f.off.toInt)))
def execCall (f : Br) (s : State) : Res :=
  .next (s.issue { hdOf 0xAA (brWord 0xAA f) with more := linkRegs } (branch false true (2 * f.off.toInt)))
def execCallL (f : Brl) (s : State) : Res :=
  .next (s.issue { hdOf 0xAB (brlWord 0xAB f) with more := linkRegs } (branch false true (2 * f.off.toInt)))
def execCallr (f : Rrr) (s : State) : Res :=
  .next (s.issue { hdOf 0xAC (rrrWord 0xAC f) with more := linkRegs } (branch true true 0))
def execJr (f : Rrr) (s : State) : Res := .next (s.issue (hdOf 0xAD (rrrWord 0xAD f)) (branch true false 0))
def execRet (f : Rrr) (s : State) : Res := .next (s.issue (hdOf 0xAE (rrrWord 0xAE f)) (branch true false 0))

/-! ## exit, rejoin masks, trail and waitr -/

/-- Gives the lanes `m` something to do at the end of the run. -/
def Strand.setAct (st : Strand) (m : Word) (a : EndAct) : Strand := st.mapLanes m (fun _ l => { l with act := some a })

/-- `exit` (R77, R82). -/
def exitBody (s : State) (x : Iss) : Act :=
  if x.st.bound && x.g != 0 && x.g != x.st.liveMask then .done { s := s.trapLanes x.i x.m 0x11 x.pc 4 0 }
  else .done { s := s.putStrand x.i (x.st.setAct x.g .exit), ends := true }

def execExit (f : Rrr) (s : State) : Res := .next (s.issue (hdOf 0xAF (rrrWord 0xAF f)) exitBody)

/-- `jset` and `jadd` (R83). -/
def execJset (f : Rrr) (s : State) : Res :=
  .next (s.issue (hdOf 0xB0 (rrrWord 0xB0 f)) fun s x =>
    .done { s := s.putStrand x.i { x.st with js := x.st.js.set (f.d.toNat % 16) x.m } })
def execJadd (f : Rrr) (s : State) : Res :=
  .next (s.issue (hdOf 0xB1 (rrrWord 0xB1 f)) fun s x =>
    .done { s := s.putStrand x.i { x.st with js := x.st.js.set (f.d.toNat % 16) (x.st.js.getD (f.d.toNat % 16) 0 ||| x.m) } })

/-- `join` (R75, R84): the lanes arrive when the run has ended. -/
def execJoin (f : Rrr) (s : State) : Res :=
  .next (s.issue (hdOf 0xB2 (rrrWord 0xB2 f)) fun s x =>
    .done { s := s.putStrand x.i (x.st.setAct x.m (.join (f.d.toNat % 16) (bit f.x.toNat 0))), ends := true })

/-- `trail` (R85): its entries are placed at the end of the run. -/
def execTrail (f : Rrr) (s : State) : Res :=
  .next (s.issue (hdOf 0xB3 (rrrWord 0xB3 f)) fun s x => .done { s := s.putStrand x.i { x.st with trail := some f }, ends := true })

/-- `waitr` (R86). -/
def execWaitr (f : Rrr) (s : State) : Res :=
  .next (s.issue { hdOf 0xB4 (rrrWord 0xB4 f) with more := List.range 56 } fun s x =>
    if x.st.pends.any (fun p => p.caps.any (fun c => inMask x.m c.lane)) then .stall .fence else .done { s := s })

/-! ## vote (R87) -/

/-- The members a lane polls, of those live, and the ones whose predicate is true. -/
def voteSets (x : Iss) (k : Nat) : Word × Word :=
  let f := x.h.f
  let named := if bit f.x.toNat 3 then x.st.src k f.b else x.m
  let m := named &&& x.st.liveMask
  (m, maskOf (fun j => inMask m j && x.st.pred j (f.a.toNat % 8)))

def voteBody (s : State) (x : Iss) : Act :=
  let f := x.h.f
  let masked := bit f.x.toNat 3
  let bad := if masked then maskOf (fun k => inMask x.m k && !inMask (x.st.src k f.b) k) else 0
  let good := x.m &&& ~~~bad
  let count (p : Word) : Word := BitVec.ofNat 32 (lanesOf p).length
  let kind := f.x.toNat % 8
  let st :=
    if kind < 3 then
      x.st.writePred good (f.d.toNat % 8) (fun k =>
        let (m, p) := voteSets x k
        match kind with
        | 0 => p != 0
        | 1 => p == m
        | _ => p == 0 || p == m)
    else
      let val (k : Nat) : Word :=
        let (_, p) := voteSets x k
        match kind with
        | 3 => p
        | 4 => count p
        | _ => if p = 0 then 0xFFFFFFFF else BitVec.ofNat 32 (lowest p)
      x.st.write32 good f.d.toNat val (if masked then none else some (.u (val (lowest good))))
  let s := s.putStrand x.i st
  .done { s := if bad = 0 then s else s.trapLanes x.i bad 0x05 x.pc 4 0, dst := if kind < 3 then .nothing else .reg f.d.toNat }

def execVote (f : Rrr) (s : State) : Res := .next (s.issue (hdOf 0xB5 (rrrWord 0xB5 f)) voteBody)

/-! ## The waggle queue -/

/-- Whether a push of context c finds its reserve of 32 entries not full (R79). -/
def Cx.waggleOwn (c : Cx) : Bool := decide (c.waggle.length - c.wqShared < 32)

/-- Whether a push of context c finds an entry: one of its reserve, or a shared one (R79). A lead context that is
admitted has its reserve at once, however many shared entries are in use (notes/assumptions/58.md). -/
def State.waggleRoom (s : State) (c : Cx) : Bool :=
  let on := s.cxs.filter (fun e => e.2.core == c.core && e.2.resident && e.2.lead.isSome)
  c.waggleOwn || decide ((on.map (fun e => e.2.wqShared)).sum + 32 * on.length < 256)

/-- `wq.push` (R79, R80, R88). -/
def wqPushBody (s : State) (x : Iss) : Act :=
  match s.cx x.st.cx with
  | none => .done { s := s }
  | some c =>
    if !s.waggleRoom c || (!c.waggleOwn && s.queuesBehind x.i .waggle (fun t => s.homeUnit t == c.core)) then .stall .waggle
    else if (s.liveWarps c).isEmpty then .done { s := s }
    else
      let s := s.updCx x.st.cx (fun c => { c with
        waggle := c.waggle ++ [x.st.sreg x.h.f.d.toNat], waggleOrd := c.waggleOrd ++ [(x.st.lane 0).ord]
        wqShared := if c.waggleOwn then c.wqShared else c.wqShared + 1 })
      .done { s := s.evalPops x.st.cx }

def execWqPush (f : Rrr) (s : State) : Res := .next (s.issue (hdOf 0xB6 (rrrWord 0xB6 f)) wqPushBody)

/-- `wq.pop` (R89): the oldest entry this warp has not popped; on an empty queue the group parks. -/
def wqPopBody (s : State) (x : Iss) : Act :=
  let ill : Act := .done { s := s.trapLanes x.i x.m 0x03 x.pc 4 0 }
  match s.cx x.st.cx with
  | none => ill
  | some c =>
    if c.lead.isNone then ill
    else
      match c.waggle[x.st.popped - c.freed]? with
      | some v =>
        let o := ((c.waggleOrd[x.st.popped - c.freed]?).map Ord.hist).getD []
        let st := (x.st.acquire x.m o 1)
        let s := (s.putStrand x.i { st with popped := x.st.popped + 1 }).wqTrim x.st.cx
        pendAct s x ((lanesOf x.m).map (fun k => ⟨k, 0, v.setWidth 128⟩)) 2 true
      | none =>
        if s.leadGone c then ill
        else .done { s := s.putStrand x.i ((x.st.setAct x.m (.wpop x.h.f.d.toNat (x.m = x.st.wholeMask))).mapLanes x.m (fun _ l => { l with st := .waggle }))
                     ends := true }

def execWqPop (f : Rrr) (s : State) : Res := .next (s.issue (hdOf 0xB7 (rrrWord 0xB7 f)) wqPopBody)

/-! ## Software traps and the return from one -/

/-- `brk` (R90) and `trapi` (R335). -/
def execBrk (f : Rrr) (s : State) : Res :=
  .next (s.issue (hdOf 0xB8 (rrrWord 0xB8 f)) fun s x => .done { s := s.trapLanes x.i x.m 0x30 x.pc 4 (f.d.toNat * 64 + f.a.toNat) })
def execTrapi (f : Rrr) (s : State) : Res :=
  .next (s.issue (hdOf 0xF4 (rrrWord 0xF4 f)) fun s x => .done { s := s.trapLanes x.i x.m 0x31 x.pc 4 (f.d.toNat * 64 + f.a.toNat) })

/-- `rti` (R336): a lane of a trap routine returns, a save or restore routine ends; anywhere else ILL_CTX. -/
def execRti (f : Rrr) (s : State) : Res :=
  .next (s.issue (hdOf 0xF5 (rrrWord 0xF5 f)) fun s x =>
    let ok := maskOf (fun k => inMask x.m k && (x.st.routine != .none || (x.st.lane k).intrap))
    let bad := x.m &&& ~~~ok
    let s := s.putStrand x.i (x.st.setAct ok .rti)
    .done { s := if bad = 0 then s else s.trapLanes x.i bad 0x03 x.pc 4 0, ends := true })

/-! ## The ends of stalls, starvation and delivery -/

/-- ISSUE_STARVATION (R62, R63): a ready warp passed over at 64 opportunities issues next. -/
def execIssueStarvation (st : Nat) (s : State) : Res :=
  .next (match s.strand st with
    | some t => if s.canIssue st t && decide (64 ≤ t.passed) then { s with agenda := .run st :: s.agenda } else s
    | none => s)

/-- FAULT_DELIVERY (R72). -/
def execFaultDelivery (st : Nat) (s : State) : Res := .next (s.deliver st)

/-- GENERAL_BLOCK_GRANT (R102). -/
def execGeneralBlockGrant (core : Nat) (s : State) : Res := .next (s.unstall .block (fun t => s.homeUnit t == core))
/-- SFU_QUEUE_ADMIT (R139). -/
def execSfuQueueAdmit (core : Nat) (s : State) : Res := .next (s.unstall .sfu (fun t => s.homeUnit t == core))
/-- MISS_BUFFER_GRANT (R186); a replay that waits for an entry starts where there is one (R185). -/
def execMissBufferGrant (core : Nat) (s : State) : Res :=
  .next (((s.strands.filter (fun e => s.unitOf e.2 == core && (s.func (s.fnOf e.2)).replays.any (fun r => r.strand == e.1 && r.go))).map (·.1)).foldl
    State.launchAll (s.unstall .miss (fun t => s.unitOf t == core)))
/-- ENGINE_QUEUE_ROOM (R231): the die's queue takes the group that stalled for it first; each workgroup has a limit of its
own. -/
def execEngineQueueRoom (die : Nat) (s : State) : Res :=
  .next ((s.unstall .engine (fun t => dieOfUnit (s.homeUnit t) == die)).unstallAll .cmds (fun t => dieOfUnit (s.homeUnit t) == die))
/-- HOME_RECORD_GRANT (R260). -/
def execHomeRecordGrant (cx : Nat) (s : State) : Res := .next (s.unstall .homeRec (fun t => t.cx == cx))
/-- ENGINE_HOLDER_FREE (R280). -/
def execEngineHolderFree (core : Nat) (s : State) : Res := .next (s.unstall .holder (fun t => s.homeUnit t == core))
/-- MATRIX_QUEUE_ROOM (R289). -/
def execMatrixQueueRoom (core : Nat) (s : State) : Res := .next (s.unstall .matrix (fun t => s.homeUnit t == core))
/-- COMB_BUFFER_ROOM (R343). -/
def execCombBufferRoom (chan : Nat) (s : State) : Res :=
  .next (s.unstall .comb (fun t => s.insts.any (fun e => e.2.cx == t.cx && e.2.modeChan == chan)))
/-- WAGGLE_ENTRY_FREE (R79). -/
def execWaggleEntryFree (core : Nat) (s : State) : Res := .next (s.unstall .waggle (fun t => s.homeUnit t == core))

end Sys2Proof.Machine
end

