-- ==== Sys2Proof/WellFormed.lean ====
section
/-! DEFINITION. Well-formed instructions: the encodings R40 step 2 accepts whatever the context. The
register checks that depend on the context (R24, R25, R92) are made when the instruction issues. -/
namespace Sys2Proof
open Machine

/-- The 32-bit word of opcode `op` is an encoding of its row. -/
def wordOk (op w : Nat) : Bool :=
  match opRow op with
  | some r => encOk r w
  | none => false

/-- The encoding part of R40 for an instruction. Every 16-bit encoding is well formed (R40); an
unassigned word is one whose opcode the map does not list (R37); a step of the hardware has no fields to check and no word (its
size is 0). -/
def Instr.wf : Instr → Bool
  | .mov f => wordOk 0x00 (rrrWord 0x00 f)
  | .iadd f => wordOk 0x01 (rrrWord 0x01 f)
  | .isub f => wordOk 0x02 (rrrWord 0x02 f)
  | .imul f => wordOk 0x03 (rrrWord 0x03 f)
  | .imulhS f => wordOk 0x04 (rrrWord 0x04 f)
  | .imulhU f => wordOk 0x05 (rrrWord 0x05 f)
  | .imad f => wordOk 0x06 (rrrWord 0x06 f)
  | .iaddI64 f => wordOk 0x07 (rrrWord 0x07 f)
  | .isubI64 f => wordOk 0x08 (rrrWord 0x08 f)
  | .imulI64 f => wordOk 0x09 (rrrWord 0x09 f)
  | .bitAnd f => wordOk 0x0A (rrrWord 0x0A f)
  | .bitOr f => wordOk 0x0B (rrrWord 0x0B f)
  | .bitXor f => wordOk 0x0C (rrrWord 0x0C f)
  | .shl f => wordOk 0x0D (rrrWord 0x0D f)
  | .shrU f => wordOk 0x0E (rrrWord 0x0E f)
  | .shrS f => wordOk 0x0F (rrrWord 0x0F f)
  | .iminS f => wordOk 0x10 (rrrWord 0x10 f)
  | .imaxS f => wordOk 0x11 (rrrWord 0x11 f)
  | .iminU f => wordOk 0x12 (rrrWord 0x12 f)
  | .imaxU f => wordOk 0x13 (rrrWord 0x13 f)
  | .popc f => wordOk 0x14 (rrrWord 0x14 f)
  | .clz f => wordOk 0x15 (rrrWord 0x15 f)
  | .bfx f => wordOk 0x16 (rrrWord 0x16 f)
  | .bfi f => wordOk 0x17 (rrrWord 0x17 f)
  | .icmp f => wordOk 0x18 (rrrWord 0x18 f)
  | .icmpI64 f => wordOk 0x19 (rrrWord 0x19 f)
  | .isel f => wordOk 0x1A (rrrWord 0x1A f)
  | .movi f => wordOk 0x1B (ri16Word 0x1B f)
  | .movhi f => wordOk 0x1C (ri16Word 0x1C f)
  | .iaddi f => wordOk 0x1D (rriWord 0x1D f)
  | .andi f => wordOk 0x1E (rriWord 0x1E f)
  | .ori f => wordOk 0x1F (rriWord 0x1F f)
  | .shli f => wordOk 0x20 (rriWord 0x20 f)
  | .shriU f => wordOk 0x21 (rriWord 0x21 f)
  | .shriS f => wordOk 0x22 (rriWord 0x22 f)
  | .leaTp f => wordOk 0x23 (rrrWord 0x23 f)
  | .rdsp f => wordOk 0x24 (rrrWord 0x24 f)
  | .pset f => wordOk 0x25 (rrrWord 0x25 f)
  | .predv f => wordOk 0x26 (rrrWord 0x26 f)
  | .vpred f => wordOk 0x27 (rrrWord 0x27 f)
  | .shape f => wordOk 0x28 (rrrWord 0x28 f)
  | .unify f => wordOk 0x29 (rrrWord 0x29 f)
  | .xlaneFrom f => wordOk 0x2A (rrrWord 0x2A f)
  | .xlaneBack f => wordOk 0x2B (rrrWord 0x2B f)
  | .xlaneFwd f => wordOk 0x2C (rrrWord 0x2C f)
  | .xlaneFlip f => wordOk 0x2D (rrrWord 0x2D f)
  | .bcast f => wordOk 0x2E (rrrWord 0x2E f)
  | .matchKey f => wordOk 0x2F (rrrWord 0x2F f)
  | .mred f => wordOk 0x30 (rrrWord 0x30 f)
  | .fadd f => wordOk 0x40 (rrrWord 0x40 f)
  | .fsub f => wordOk 0x41 (rrrWord 0x41 f)
  | .fmul f => wordOk 0x42 (rrrWord 0x42 f)
  | .ffma f => wordOk 0x43 (rrrWord 0x43 f)
  | .fopRm f => wordOk 0x44 (rrrWord 0x44 f)
  | .fmin f => wordOk 0x45 (rrrWord 0x45 f)
  | .fmax f => wordOk 0x46 (rrrWord 0x46 f)
  | .fabs f => wordOk 0x47 (rrrWord 0x47 f)
  | .fneg f => wordOk 0x48 (rrrWord 0x48 f)
  | .fcmp f => wordOk 0x49 (rrrWord 0x49 f)
  | .frcp f => wordOk 0x4A (rrrWord 0x4A f)
  | .frsq f => wordOk 0x4B (rrrWord 0x4B f)
  | .fsqrt f => wordOk 0x4C (rrrWord 0x4C f)
  | .fex2 f => wordOk 0x4D (rrrWord 0x4D f)
  | .flg2 f => wordOk 0x4E (rrrWord 0x4E f)
  | .fsin f => wordOk 0x4F (rrrWord 0x4F f)
  | .fcos f => wordOk 0x50 (rrrWord 0x50 f)
  | .hop2 f => wordOk 0x51 (rrrWord 0x51 f)
  | .hdot2 f => wordOk 0x52 (rrrWord 0x52 f)
  | .cvtFI f => wordOk 0x53 (rrrWord 0x53 f)
  | .cvtIF f => wordOk 0x54 (rrrWord 0x54 f)
  | .cvtHF f => wordOk 0x55 (rrrWord 0x55 f)
  | .cvtFH f => wordOk 0x56 (rrrWord 0x56 f)
  | .cvtQF f => wordOk 0x57 (rrrWord 0x57 f)
  | .cvtFQ f => wordOk 0x58 (rrrWord 0x58 f)
  | .packH2 f => wordOk 0x59 (rrrWord 0x59 f)
  | .packQ4 f => wordOk 0x5A (rrrWord 0x5A f)
  | .zbenc f => wordOk 0x5B (rrrWord 0x5B f)
  | .zbdec f => wordOk 0x5C (rrrWord 0x5C f)
  | .lbind f => wordOk 0x70 (rrrWord 0x70 f)
  | .lfree f => wordOk 0x71 (rrrWord 0x71 f)
  | .ladd f => wordOk 0x72 (rrrWord 0x72 f)
  | .lsub f => wordOk 0x73 (rrrWord 0x73 f)
  | .lneg f => wordOk 0x74 (rrrWord 0x74 f)
  | .lshl f => wordOk 0x75 (rrrWord 0x75 f)
  | .lshrU f => wordOk 0x76 (rrrWord 0x76 f)
  | .lshrS f => wordOk 0x77 (rrrWord 0x77 f)
  | .lrot f => wordOk 0x78 (rrrWord 0x78 f)
  | .lmad f => wordOk 0x79 (rrrWord 0x79 f)
  | .lspill f => wordOk 0x7A (rrrWord 0x7A f)
  | .lcmp f => wordOk 0x7B (rrrWord 0x7B f)
  | .lld f => wordOk 0x7C (rrrWord 0x7C f)
  | .lst f => wordOk 0x7D (rrrWord 0x7D f)
  | .lstat f => wordOk 0x7E (rrrWord 0x7E f)
  | .ldZ8 f => wordOk 0x80 (rrrWord 0x80 f)
  | .ldS8 f => wordOk 0x81 (rrrWord 0x81 f)
  | .ldZ16 f => wordOk 0x82 (rrrWord 0x82 f)
  | .ldS16 f => wordOk 0x83 (rrrWord 0x83 f)
  | .ldB32 f => wordOk 0x84 (rrrWord 0x84 f)
  | .ldB64 f => wordOk 0x85 (rrrWord 0x85 f)
  | .ldB128 f => wordOk 0x86 (rrrWord 0x86 f)
  | .stB8 f => wordOk 0x87 (rrrWord 0x87 f)
  | .stB16 f => wordOk 0x88 (rrrWord 0x88 f)
  | .stB32 f => wordOk 0x89 (rrrWord 0x89 f)
  | .stB64 f => wordOk 0x8A (rrrWord 0x8A f)
  | .stB128 f => wordOk 0x8B (rrrWord 0x8B f)
  | .ldAcqB32 f => wordOk 0x8C (rrrWord 0x8C f)
  | .ldAcqB64 f => wordOk 0x8D (rrrWord 0x8D f)
  | .stRelB32 f => wordOk 0x8E (rrrWord 0x8E f)
  | .stRelB64 f => wordOk 0x8F (rrrWord 0x8F f)
  | .atomAdd f => wordOk 0x90 (rrrWord 0x90 f)
  | .atomMinS f => wordOk 0x91 (rrrWord 0x91 f)
  | .atomMaxS f => wordOk 0x92 (rrrWord 0x92 f)
  | .atomAnd f => wordOk 0x93 (rrrWord 0x93 f)
  | .atomOr f => wordOk 0x94 (rrrWord 0x94 f)
  | .atomXor f => wordOk 0x95 (rrrWord 0x95 f)
  | .atomXchg f => wordOk 0x96 (rrrWord 0x96 f)
  | .atomCas f => wordOk 0x97 (rrrWord 0x97 f)
  | .atomFadd f => wordOk 0x98 (rrrWord 0x98 f)
  | .atomBfadd2 f => wordOk 0x99 (rrrWord 0x99 f)
  | .redAdd f => wordOk 0x9A (rrrWord 0x9A f)
  | .redFadd f => wordOk 0x9B (rrrWord 0x9B f)
  | .cache f => wordOk 0x9C (rrrWord 0x9C f)
  | .fence f => wordOk 0x9D (rrrWord 0x9D f)
  | .xfence f => wordOk 0x9E (rrrWord 0x9E f)
  | .forage f => wordOk 0xA0 (rrrWord 0xA0 f)
  | .forageTry f => wordOk 0xA1 (rrrWord 0xA1 f)
  | .home f => wordOk 0xA2 (rrrWord 0xA2 f)
  | .fstat f => wordOk 0xA3 (rrrWord 0xA3 f)
  | .br f => wordOk 0xA8 (brWord 0xA8 f)
  | .brL f => wordOk 0xA9 (brlWord 0xA9 f)
  | .call f => wordOk 0xAA (brWord 0xAA f)
  | .callL f => wordOk 0xAB (brlWord 0xAB f)
  | .callr f => wordOk 0xAC (rrrWord 0xAC f)
  | .jr f => wordOk 0xAD (rrrWord 0xAD f)
  | .ret f => wordOk 0xAE (rrrWord 0xAE f)
  | .exit f => wordOk 0xAF (rrrWord 0xAF f)
  | .jset f => wordOk 0xB0 (rrrWord 0xB0 f)
  | .jadd f => wordOk 0xB1 (rrrWord 0xB1 f)
  | .join f => wordOk 0xB2 (rrrWord 0xB2 f)
  | .trail f => wordOk 0xB3 (rrrWord 0xB3 f)
  | .waitr f => wordOk 0xB4 (rrrWord 0xB4 f)
  | .vote f => wordOk 0xB5 (rrrWord 0xB5 f)
  | .wqPush f => wordOk 0xB6 (rrrWord 0xB6 f)
  | .wqPop f => wordOk 0xB7 (rrrWord 0xB7 f)
  | .brk f => wordOk 0xB8 (rrrWord 0xB8 f)
  | .cpL f => wordOk 0xC0 (rrrWord 0xC0 f)
  | .cpT f => wordOk 0xC1 (rrrWord 0xC1 f)
  | .cpG f => wordOk 0xC2 (rrrWord 0xC2 f)
  | .cpGcm f => wordOk 0xC3 (rrrWord 0xC3 f)
  | .cpStat f => wordOk 0xC4 (rrrWord 0xC4 f)
  | .cpCancel f => wordOk 0xC5 (rrrWord 0xC5 f)
  | .barInit f => wordOk 0xC6 (rrrWord 0xC6 f)
  | .barArrive f => wordOk 0xC7 (rrrWord 0xC7 f)
  | .barExpect f => wordOk 0xC8 (rrrWord 0xC8 f)
  | .barWait f => wordOk 0xC9 (rrrWord 0xC9 f)
  | .barTest f => wordOk 0xCA (rrrWord 0xCA f)
  | .barInval f => wordOk 0xCB (rrrWord 0xCB f)
  | .obres f => wordOk 0xD0 (rrrWord 0xD0 f)
  | .obrel f => wordOk 0xD1 (rrrWord 0xD1 f)
  | .mma f => wordOk 0xD2 (rrrWord 0xD2 f)
  | .mconv f => wordOk 0xD3 (rrrWord 0xD3 f)
  | .mzero f => wordOk 0xD4 (rrrWord 0xD4 f)
  | .mld f => wordOk 0xD5 (rrrWord 0xD5 f)
  | .mst f => wordOk 0xD6 (rrrWord 0xD6 f)
  | .mwait f => wordOk 0xD7 (rrrWord 0xD7 f)
  | .mstat f => wordOk 0xD8 (rrrWord 0xD8 f)
  | .cmode f => wordOk 0xE0 (rrrWord 0xE0 f)
  | .cbcast f => wordOk 0xE1 (rrrWord 0xE1 f)
  | .cldRow f => wordOk 0xE2 (rrrWord 0xE2 f)
  | .cstRow f => wordOk 0xE3 (rrrWord 0xE3 f)
  | .cmac f => wordOk 0xE4 (rrrWord 0xE4 f)
  | .cdot f => wordOk 0xE5 (rrrWord 0xE5 f)
  | .cred f => wordOk 0xE6 (rrrWord 0xE6 f)
  | .cwr f => wordOk 0xE7 (rrrWord 0xE7 f)
  | .clut f => wordOk 0xE8 (rrrWord 0xE8 f)
  | .cattn f => wordOk 0xE9 (rrrWord 0xE9 f)
  | .ctblWr f => wordOk 0xEA (rrrWord 0xEA f)
  | .ctblSwap f => wordOk 0xEB (rrrWord 0xEB f)
  | .csync f => wordOk 0xEC (rrrWord 0xEC f)
  | .cstat f => wordOk 0xED (rrrWord 0xED f)
  | .nodeSpawn f => wordOk 0xF0 (rrrWord 0xF0 f)
  | .grp f => wordOk 0xF1 (rrrWord 0xF1 f)
  | .sysrd f => wordOk 0xF2 (rrrWord 0xF2 f)
  | .syswr f => wordOk 0xF3 (rrrWord 0xF3 f)
  | .trapi f => wordOk 0xF4 (rrrWord 0xF4 f)
  | .rti f => wordOk 0xF5 (rrrWord 0xF5 f)
  | .mov16 _ => true
  | .iadd16 _ => true
  | .isub16 _ => true
  | .imul16 _ => true
  | .bitAnd16 _ => true
  | .bitOr16 _ => true
  | .bitXor16 _ => true
  | .shl16 _ => true
  | .shrU16 _ => true
  | .shrS16 _ => true
  | .iminS16 _ => true
  | .imaxS16 _ => true
  | .fadd16 _ => true
  | .fsub16 _ => true
  | .fmul16 _ => true
  | .fmax16 _ => true
  | .unassignedOpcode w => w.toNat % 2 == 1 && (opRow (opOf w.toNat)).isNone
  | .classLResultLand _ _ _ _ _ => true
  | .issueStarvation _ => true
  | .faultDelivery _ => true
  | .faultQueueWrite _ => true
  | .generalBlockGrant _ => true
  | .sfuQueueAdmit _ => true
  | .missBufferGrant _ => true
  | .engineQueueRoom _ => true
  | .homeRecordGrant _ => true
  | .engineHolderFree _ => true
  | .matrixQueueRoom _ => true
  | .combBufferRoom _ => true
  | .waggleEntryFree _ => true
  | .fenceWaitEnd _ => true
  | .applyAtHome _ _ => true
  | .viewUpdate _ _ _ => true
  | .pageWalk _ _ => true
  | .engineLeaseGrant _ _ => true
  | .leaseExpiry _ _ => true
  | .beatLand _ _ => true
  | .gcmCounterCheck _ _ => true
  | .gcmTagVerify _ _ => true
  | .continuationArrival _ => true
  | .arrivalQueueAccept _ => true
  | .homeReturn _ => true
  | .matrixStep _ => true
  | .matrixCommandEnd _ => true
  | .combInstanceStart _ _ => true
  | .combWaveStart _ => true
  | .submissionRingRead _ => true
  | .walkerIntakeDrain _ => true
  | .dispatchNode _ => true
  | .workgroupAdmission _ _ _ => true
  | .workgroupStart _ => true
  | .workgroupComplete _ => true
  | .nodeComplete _ => true
  | .preempttoExpiry _ => true
  | .saveAreaWrite _ => true
  | .contextRestore _ _ _ => true
  | .combInstanceRestore _ => true
  | .fqackRetry _ _ => true
  | .fqackSkip _ _ => true
  | .fqackKill _ _ => true
  | .tlbinvPage _ _ => true
  | .tlbinvFunction _ => true
  | .tlbinvWalkerCache _ => true
  | .attrReset _ _ => true
  | .sysregWrite _ _ _ => true
  | .usedHalving _ => true
  | .banklimWrite _ _ _ => true
  | .doorbell _ _ _ => true
  | .dispHalving => true
  | .gangWaitExpiry _ => true
  | .gangPreExpiry _ => true
  | .gangUnplaceable _ => true
  | .launchPacket _ _ _ _ _ => true
  | .sliceCreate => true
  | .addch => true
  | .addcore => true
  | .remch => true
  | .remcore => true
  | .movech => true
  | .setparam => true
  | .sliceDestroy => true
  | .sliceCommandEnd => true
  | .epochSweep _ => true
  | .granuleRetire _ => true
  | .coreUncorrectableError _ _ => true
  | .linkFailure _ => true
  | .mmioWrite _ _ _ _ => true
  | .mmioRead _ _ _ => true
  | .intcauseClear _ _ _ => true
  | .atsTranslationCompletion _ _ _ _ => true
  | .priPageResponse _ _ _ _ => true
  | .priTimeout _ _ _ => true
  | .atsInvalidateRequest _ _ _ => true
  | .atsInvalidateCompletion _ => true
  | .lockInterfaceRequest _ => true
  | .startInterfaceRequest _ => true
  | .stopInterfaceRequest _ => true
  | .ideKm _ _ => true
  | .ideIntegrityFailure _ => true
  | .pfFunctionConfigChange _ => true
  | .getCreni _ _ => true
  | .streamSet _ _ _ _ _ => true
  | .streamClr _ _ => true
  | .quiesceFunction _ _ => true
  | .quiesceComplete _ => true
  | .resumeFunction _ => true
  | .migkey _ _ _ => true
  | .dirtyRead _ _ _ => true
  | .exportPage _ _ _ => true
  | .exportState _ => true
  | .importPage _ _ _ => true
  | .importState _ _ => true
  | .peerRequest _ _ _ _ _ => true
  | .vcHold _ _ => true
  | .vcRelease _ _ => true
  | .bufferReservationGrant _ => true
  | .linkRetry _ => true
  | .collectiveAck _ _ => true
  | .powerUp => true
  | .perst => true
  | .pcieHotReset => true
  | .functionLevelReset _ => true
  | .resetEngineCopy _ => true
  | .resetEngineGather _ => true
  | .resetEngineMatrix _ => true
  | .resetEngineComb _ => true
  | .resetEngineLead _ => true
  | .resetEngineCollective _ => true
  | .resetCore _ _ => true
  | .resetStack _ => true
  | .resetDie _ => true
  | .resetFunction _ => true
  | .resetSlice _ => true
  | .resetModuleWarm => true
  | .moduleColdReset => true
  | .resetComplete => true
  | .startReady => true
  | .startFailure _ => true
  | .startWatchdogExpiry => true
  | .stageBegin => true
  | .firmwareDataTransfer _ => true
  | .stageVerify _ => true
  | .fwActivate => true
  | .activationSelfCheck _ => true
  | .stageAbort => true
  | .evonosSync => true
  | .telemetryRead _ => true
  | .telemetryRefresh _ _ => true
  | .pwrcapWrite _ => true
  | .throttleStageRaise _ => true
  | .throttleStageLower _ => true
  | .governorStep _ _ => true
  | .thermalWarning _ _ => true
  | .thermalHold _ _ => true
  | .thermalTrip _ _ => true
  | .thermalTripRelease _ => true
  | .coolantFlowLow _ => true
  | .completionTimeout _ _ _ _ => true
  | .keyExchange _ _ _ => true
  | .collectiveContributionArrival _ _ _ => true
  | .dieTlbUncorrectableError _ => true
  | .l2LineUncorrectableError _ _ _ => true
  | .hubDieError => true

/-- A well-formed instruction: its fields are an encoding of its row. -/
def Instr.WF (i : Instr) : Prop := i.wf = true

end Sys2Proof
end

