-- ==== Sys2Proof/Decode.lean ====
section
/-! DEFINITION. The decoder, total on any bytes and rejecting by name, and after it the encoder (R18 to
R43). A 32-bit word whose opcode is unassigned decodes to `unassignedOpcode`, which raises ILL_OPC. -/
namespace Sys2Proof
open Machine

/-- Why bytes decode to no instruction. -/
inductive DecodeErr where
  | truncated   -- fewer bytes than the length bit of R18 asks for
  | illRes      -- step 2 of R40: guard 0xF, a res0 bit, or a forbidden field value
  deriving DecidableEq, Repr

/-- Rows 0 to 23 of the constructors of the 32-bit opcodes. -/
def builders0 : List (Nat × (Nat → Instr)) := [
  (0x00, fun w => .mov (rrrOfWord w)),
  (0x01, fun w => .iadd (rrrOfWord w)),
  (0x02, fun w => .isub (rrrOfWord w)),
  (0x03, fun w => .imul (rrrOfWord w)),
  (0x04, fun w => .imulhS (rrrOfWord w)),
  (0x05, fun w => .imulhU (rrrOfWord w)),
  (0x06, fun w => .imad (rrrOfWord w)),
  (0x07, fun w => .iaddI64 (rrrOfWord w)),
  (0x08, fun w => .isubI64 (rrrOfWord w)),
  (0x09, fun w => .imulI64 (rrrOfWord w)),
  (0x0A, fun w => .bitAnd (rrrOfWord w)),
  (0x0B, fun w => .bitOr (rrrOfWord w)),
  (0x0C, fun w => .bitXor (rrrOfWord w)),
  (0x0D, fun w => .shl (rrrOfWord w)),
  (0x0E, fun w => .shrU (rrrOfWord w)),
  (0x0F, fun w => .shrS (rrrOfWord w)),
  (0x10, fun w => .iminS (rrrOfWord w)),
  (0x11, fun w => .imaxS (rrrOfWord w)),
  (0x12, fun w => .iminU (rrrOfWord w)),
  (0x13, fun w => .imaxU (rrrOfWord w)),
  (0x14, fun w => .popc (rrrOfWord w)),
  (0x15, fun w => .clz (rrrOfWord w)),
  (0x16, fun w => .bfx (rrrOfWord w)),
  (0x17, fun w => .bfi (rrrOfWord w))]

/-- Rows 24 to 47 of the constructors of the 32-bit opcodes. -/
def builders1 : List (Nat × (Nat → Instr)) := [
  (0x18, fun w => .icmp (rrrOfWord w)),
  (0x19, fun w => .icmpI64 (rrrOfWord w)),
  (0x1A, fun w => .isel (rrrOfWord w)),
  (0x1B, fun w => .movi (ri16OfWord w)),
  (0x1C, fun w => .movhi (ri16OfWord w)),
  (0x1D, fun w => .iaddi (rriOfWord w)),
  (0x1E, fun w => .andi (rriOfWord w)),
  (0x1F, fun w => .ori (rriOfWord w)),
  (0x20, fun w => .shli (rriOfWord w)),
  (0x21, fun w => .shriU (rriOfWord w)),
  (0x22, fun w => .shriS (rriOfWord w)),
  (0x23, fun w => .leaTp (rrrOfWord w)),
  (0x24, fun w => .rdsp (rrrOfWord w)),
  (0x25, fun w => .pset (rrrOfWord w)),
  (0x26, fun w => .predv (rrrOfWord w)),
  (0x27, fun w => .vpred (rrrOfWord w)),
  (0x28, fun w => .shape (rrrOfWord w)),
  (0x29, fun w => .unify (rrrOfWord w)),
  (0x2A, fun w => .xlaneFrom (rrrOfWord w)),
  (0x2B, fun w => .xlaneBack (rrrOfWord w)),
  (0x2C, fun w => .xlaneFwd (rrrOfWord w)),
  (0x2D, fun w => .xlaneFlip (rrrOfWord w)),
  (0x2E, fun w => .bcast (rrrOfWord w)),
  (0x2F, fun w => .matchKey (rrrOfWord w))]

/-- Rows 48 to 71 of the constructors of the 32-bit opcodes. -/
def builders2 : List (Nat × (Nat → Instr)) := [
  (0x30, fun w => .mred (rrrOfWord w)),
  (0x40, fun w => .fadd (rrrOfWord w)),
  (0x41, fun w => .fsub (rrrOfWord w)),
  (0x42, fun w => .fmul (rrrOfWord w)),
  (0x43, fun w => .ffma (rrrOfWord w)),
  (0x44, fun w => .fopRm (rrrOfWord w)),
  (0x45, fun w => .fmin (rrrOfWord w)),
  (0x46, fun w => .fmax (rrrOfWord w)),
  (0x47, fun w => .fabs (rrrOfWord w)),
  (0x48, fun w => .fneg (rrrOfWord w)),
  (0x49, fun w => .fcmp (rrrOfWord w)),
  (0x4A, fun w => .frcp (rrrOfWord w)),
  (0x4B, fun w => .frsq (rrrOfWord w)),
  (0x4C, fun w => .fsqrt (rrrOfWord w)),
  (0x4D, fun w => .fex2 (rrrOfWord w)),
  (0x4E, fun w => .flg2 (rrrOfWord w)),
  (0x4F, fun w => .fsin (rrrOfWord w)),
  (0x50, fun w => .fcos (rrrOfWord w)),
  (0x51, fun w => .hop2 (rrrOfWord w)),
  (0x52, fun w => .hdot2 (rrrOfWord w)),
  (0x53, fun w => .cvtFI (rrrOfWord w)),
  (0x54, fun w => .cvtIF (rrrOfWord w)),
  (0x55, fun w => .cvtHF (rrrOfWord w)),
  (0x56, fun w => .cvtFH (rrrOfWord w))]

/-- Rows 72 to 95 of the constructors of the 32-bit opcodes. -/
def builders3 : List (Nat × (Nat → Instr)) := [
  (0x57, fun w => .cvtQF (rrrOfWord w)),
  (0x58, fun w => .cvtFQ (rrrOfWord w)),
  (0x59, fun w => .packH2 (rrrOfWord w)),
  (0x5A, fun w => .packQ4 (rrrOfWord w)),
  (0x5B, fun w => .zbenc (rrrOfWord w)),
  (0x5C, fun w => .zbdec (rrrOfWord w)),
  (0x70, fun w => .lbind (rrrOfWord w)),
  (0x71, fun w => .lfree (rrrOfWord w)),
  (0x72, fun w => .ladd (rrrOfWord w)),
  (0x73, fun w => .lsub (rrrOfWord w)),
  (0x74, fun w => .lneg (rrrOfWord w)),
  (0x75, fun w => .lshl (rrrOfWord w)),
  (0x76, fun w => .lshrU (rrrOfWord w)),
  (0x77, fun w => .lshrS (rrrOfWord w)),
  (0x78, fun w => .lrot (rrrOfWord w)),
  (0x79, fun w => .lmad (rrrOfWord w)),
  (0x7A, fun w => .lspill (rrrOfWord w)),
  (0x7B, fun w => .lcmp (rrrOfWord w)),
  (0x7C, fun w => .lld (rrrOfWord w)),
  (0x7D, fun w => .lst (rrrOfWord w)),
  (0x7E, fun w => .lstat (rrrOfWord w)),
  (0x80, fun w => .ldZ8 (rrrOfWord w)),
  (0x81, fun w => .ldS8 (rrrOfWord w)),
  (0x82, fun w => .ldZ16 (rrrOfWord w))]

/-- Rows 96 to 119 of the constructors of the 32-bit opcodes. -/
def builders4 : List (Nat × (Nat → Instr)) := [
  (0x83, fun w => .ldS16 (rrrOfWord w)),
  (0x84, fun w => .ldB32 (rrrOfWord w)),
  (0x85, fun w => .ldB64 (rrrOfWord w)),
  (0x86, fun w => .ldB128 (rrrOfWord w)),
  (0x87, fun w => .stB8 (rrrOfWord w)),
  (0x88, fun w => .stB16 (rrrOfWord w)),
  (0x89, fun w => .stB32 (rrrOfWord w)),
  (0x8A, fun w => .stB64 (rrrOfWord w)),
  (0x8B, fun w => .stB128 (rrrOfWord w)),
  (0x8C, fun w => .ldAcqB32 (rrrOfWord w)),
  (0x8D, fun w => .ldAcqB64 (rrrOfWord w)),
  (0x8E, fun w => .stRelB32 (rrrOfWord w)),
  (0x8F, fun w => .stRelB64 (rrrOfWord w)),
  (0x90, fun w => .atomAdd (rrrOfWord w)),
  (0x91, fun w => .atomMinS (rrrOfWord w)),
  (0x92, fun w => .atomMaxS (rrrOfWord w)),
  (0x93, fun w => .atomAnd (rrrOfWord w)),
  (0x94, fun w => .atomOr (rrrOfWord w)),
  (0x95, fun w => .atomXor (rrrOfWord w)),
  (0x96, fun w => .atomXchg (rrrOfWord w)),
  (0x97, fun w => .atomCas (rrrOfWord w)),
  (0x98, fun w => .atomFadd (rrrOfWord w)),
  (0x99, fun w => .atomBfadd2 (rrrOfWord w)),
  (0x9A, fun w => .redAdd (rrrOfWord w))]

/-- Rows 120 to 143 of the constructors of the 32-bit opcodes. -/
def builders5 : List (Nat × (Nat → Instr)) := [
  (0x9B, fun w => .redFadd (rrrOfWord w)),
  (0x9C, fun w => .cache (rrrOfWord w)),
  (0x9D, fun w => .fence (rrrOfWord w)),
  (0x9E, fun w => .xfence (rrrOfWord w)),
  (0xA0, fun w => .forage (rrrOfWord w)),
  (0xA1, fun w => .forageTry (rrrOfWord w)),
  (0xA2, fun w => .home (rrrOfWord w)),
  (0xA3, fun w => .fstat (rrrOfWord w)),
  (0xA8, fun w => .br (brOfWord w)),
  (0xA9, fun w => .brL (brlOfWord w)),
  (0xAA, fun w => .call (brOfWord w)),
  (0xAB, fun w => .callL (brlOfWord w)),
  (0xAC, fun w => .callr (rrrOfWord w)),
  (0xAD, fun w => .jr (rrrOfWord w)),
  (0xAE, fun w => .ret (rrrOfWord w)),
  (0xAF, fun w => .exit (rrrOfWord w)),
  (0xB0, fun w => .jset (rrrOfWord w)),
  (0xB1, fun w => .jadd (rrrOfWord w)),
  (0xB2, fun w => .join (rrrOfWord w)),
  (0xB3, fun w => .trail (rrrOfWord w)),
  (0xB4, fun w => .waitr (rrrOfWord w)),
  (0xB5, fun w => .vote (rrrOfWord w)),
  (0xB6, fun w => .wqPush (rrrOfWord w)),
  (0xB7, fun w => .wqPop (rrrOfWord w))]

/-- Rows 144 to 167 of the constructors of the 32-bit opcodes. -/
def builders6 : List (Nat × (Nat → Instr)) := [
  (0xB8, fun w => .brk (rrrOfWord w)),
  (0xC0, fun w => .cpL (rrrOfWord w)),
  (0xC1, fun w => .cpT (rrrOfWord w)),
  (0xC2, fun w => .cpG (rrrOfWord w)),
  (0xC3, fun w => .cpGcm (rrrOfWord w)),
  (0xC4, fun w => .cpStat (rrrOfWord w)),
  (0xC5, fun w => .cpCancel (rrrOfWord w)),
  (0xC6, fun w => .barInit (rrrOfWord w)),
  (0xC7, fun w => .barArrive (rrrOfWord w)),
  (0xC8, fun w => .barExpect (rrrOfWord w)),
  (0xC9, fun w => .barWait (rrrOfWord w)),
  (0xCA, fun w => .barTest (rrrOfWord w)),
  (0xCB, fun w => .barInval (rrrOfWord w)),
  (0xD0, fun w => .obres (rrrOfWord w)),
  (0xD1, fun w => .obrel (rrrOfWord w)),
  (0xD2, fun w => .mma (rrrOfWord w)),
  (0xD3, fun w => .mconv (rrrOfWord w)),
  (0xD4, fun w => .mzero (rrrOfWord w)),
  (0xD5, fun w => .mld (rrrOfWord w)),
  (0xD6, fun w => .mst (rrrOfWord w)),
  (0xD7, fun w => .mwait (rrrOfWord w)),
  (0xD8, fun w => .mstat (rrrOfWord w)),
  (0xE0, fun w => .cmode (rrrOfWord w)),
  (0xE1, fun w => .cbcast (rrrOfWord w))]

/-- Rows 168 to 185 of the constructors of the 32-bit opcodes. -/
def builders7 : List (Nat × (Nat → Instr)) := [
  (0xE2, fun w => .cldRow (rrrOfWord w)),
  (0xE3, fun w => .cstRow (rrrOfWord w)),
  (0xE4, fun w => .cmac (rrrOfWord w)),
  (0xE5, fun w => .cdot (rrrOfWord w)),
  (0xE6, fun w => .cred (rrrOfWord w)),
  (0xE7, fun w => .cwr (rrrOfWord w)),
  (0xE8, fun w => .clut (rrrOfWord w)),
  (0xE9, fun w => .cattn (rrrOfWord w)),
  (0xEA, fun w => .ctblWr (rrrOfWord w)),
  (0xEB, fun w => .ctblSwap (rrrOfWord w)),
  (0xEC, fun w => .csync (rrrOfWord w)),
  (0xED, fun w => .cstat (rrrOfWord w)),
  (0xF0, fun w => .nodeSpawn (rrrOfWord w)),
  (0xF1, fun w => .grp (rrrOfWord w)),
  (0xF2, fun w => .sysrd (rrrOfWord w)),
  (0xF3, fun w => .syswr (rrrOfWord w)),
  (0xF4, fun w => .trapi (rrrOfWord w)),
  (0xF5, fun w => .rti (rrrOfWord w))]

/-- The constructors of the 32-bit opcodes. -/
def builders : List (Nat × (Nat → Instr)) :=
  builders0 ++ builders1 ++ builders2 ++ builders3 ++ builders4 ++ builders5 ++ builders6 ++ builders7

/-- The constructors of the 16-bit forms, by op4 (R33). -/
def shortBuilders : List (Nat × (H16 → Instr)) := [
  (0, .mov16),
  (1, .iadd16),
  (2, .isub16),
  (3, .imul16),
  (4, .bitAnd16),
  (5, .bitOr16),
  (6, .bitXor16),
  (7, .shl16),
  (8, .shrU16),
  (9, .shrS16),
  (10, .iminS16),
  (11, .imaxS16),
  (12, .fadd16),
  (13, .fsub16),
  (14, .fmul16),
  (15, .fmax16)]

/-- Decodes one 32-bit word whose bit 0 is 1 (R21, R37, R40 steps 1 and 2). -/
def decodeLong (w : Nat) : Except DecodeErr Instr :=
  match builders.find? (·.1 == opOf w) with
  | none => .ok (.unassignedOpcode (BitVec.ofNat 32 w))
  | some p => if wordOk (opOf w) w then .ok (p.2 w) else .error .illRes

/-- Decodes one 16-bit word whose bit 0 is 0 (R32, R33). -/
def decodeShort (w : Nat) : Except DecodeErr Instr :=
  match shortBuilders.find? (·.1 == w / 4 % 16) with
  | none => .error .illRes
  | some p => .ok (p.2 (h16OfWord w))

/-- The length in bytes that the first halfword gives (R18). -/
def lengthOf (half : Nat) : Nat := if half % 2 = 0 then 2 else 4

/-- Decodes the instruction of the low bits of `w`: the first halfword in bits [15:0] (R18). -/
def decodeWord (w : Nat) : Except DecodeErr Instr :=
  if w % 2 = 0 then decodeShort (w % 65536) else decodeLong (w % 4294967296)

/-- Decodes the instruction at the front of a list of bytes, little-endian (R11), and the bytes after it. -/
def decodeBytes : List Byte → Except DecodeErr (Instr × List Byte)
  | b0 :: b1 :: rest =>
    if b0.toNat % 2 = 0 then
      (decodeShort (b0.toNat + 256 * b1.toNat)).map (·, rest)
    else
      match rest with
      | b2 :: b3 :: rest' =>
        (decodeLong (b0.toNat + 256 * b1.toNat + 65536 * b2.toNat + 16777216 * b3.toNat)).map (·, rest')
      | _ => .error .truncated
  | _ => .error .truncated

/-- The number of bytes of an instruction (R18); a hardware step takes none. -/
def Instr.size : Instr → Nat
  | .mov _  | .iadd _  | .isub _  | .imul _  | .imulhS _  | .imulhU _  | .imad _  | .iaddI64 _  | .isubI64 _  | .imulI64 _  | .bitAnd _  | .bitOr _  | .bitXor _  | .shl _  | .shrU _  | .shrS _  | .iminS _  | .imaxS _  | .iminU _  | .imaxU _  | .popc _  | .clz _  | .bfx _  | .bfi _  | .icmp _  | .icmpI64 _  | .isel _  | .movi _  | .movhi _  | .iaddi _  | .andi _  | .ori _  | .shli _  | .shriU _  | .shriS _  | .leaTp _  | .rdsp _  | .pset _  | .predv _  | .vpred _  | .shape _  | .unify _  | .xlaneFrom _  | .xlaneBack _  | .xlaneFwd _  | .xlaneFlip _  | .bcast _  | .matchKey _  | .mred _  | .fadd _  | .fsub _  | .fmul _  | .ffma _  | .fopRm _  | .fmin _  | .fmax _  | .fabs _  | .fneg _  | .fcmp _  | .frcp _  | .frsq _  | .fsqrt _  | .fex2 _  | .flg2 _  | .fsin _  | .fcos _  | .hop2 _  | .hdot2 _  | .cvtFI _  | .cvtIF _  | .cvtHF _  | .cvtFH _  | .cvtQF _  | .cvtFQ _  | .packH2 _  | .packQ4 _  | .zbenc _  | .zbdec _  | .lbind _  | .lfree _  | .ladd _  | .lsub _  | .lneg _  | .lshl _  | .lshrU _  | .lshrS _  | .lrot _  | .lmad _  | .lspill _  | .lcmp _  | .lld _  | .lst _  | .lstat _  | .ldZ8 _  | .ldS8 _  | .ldZ16 _  | .ldS16 _  | .ldB32 _  | .ldB64 _  | .ldB128 _  | .stB8 _  | .stB16 _  | .stB32 _  | .stB64 _  | .stB128 _  | .ldAcqB32 _  | .ldAcqB64 _  | .stRelB32 _  | .stRelB64 _  | .atomAdd _  | .atomMinS _  | .atomMaxS _  | .atomAnd _  | .atomOr _  | .atomXor _  | .atomXchg _  | .atomCas _  | .atomFadd _  | .atomBfadd2 _  | .redAdd _  | .redFadd _  | .cache _  | .fence _  | .xfence _  | .forage _  | .forageTry _  | .home _  | .fstat _  | .br _  | .brL _  | .call _  | .callL _  | .callr _  | .jr _  | .ret _  | .exit _  | .jset _  | .jadd _  | .join _  | .trail _  | .waitr _  | .vote _  | .wqPush _  | .wqPop _  | .brk _  | .cpL _  | .cpT _  | .cpG _  | .cpGcm _  | .cpStat _  | .cpCancel _  | .barInit _  | .barArrive _  | .barExpect _  | .barWait _  | .barTest _  | .barInval _  | .obres _  | .obrel _  | .mma _  | .mconv _  | .mzero _  | .mld _  | .mst _  | .mwait _  | .mstat _  | .cmode _  | .cbcast _  | .cldRow _  | .cstRow _  | .cmac _  | .cdot _  | .cred _  | .cwr _  | .clut _  | .cattn _  | .ctblWr _  | .ctblSwap _  | .csync _  | .cstat _  | .nodeSpawn _  | .grp _  | .sysrd _  | .syswr _  | .trapi _  | .rti _ => 4
  | .mov16 _  | .iadd16 _  | .isub16 _  | .imul16 _  | .bitAnd16 _  | .bitOr16 _  | .bitXor16 _  | .shl16 _  | .shrU16 _  | .shrS16 _  | .iminS16 _  | .imaxS16 _  | .fadd16 _  | .fsub16 _  | .fmul16 _  | .fmax16 _ => 2
  | .unassignedOpcode _ => 4
  | .classLResultLand _ _ _ _ _  | .issueStarvation _  | .faultDelivery _  | .faultQueueWrite _  | .generalBlockGrant _  | .sfuQueueAdmit _  | .missBufferGrant _  | .engineQueueRoom _  | .homeRecordGrant _  | .engineHolderFree _  | .matrixQueueRoom _  | .combBufferRoom _  | .waggleEntryFree _  | .fenceWaitEnd _  | .applyAtHome _ _  | .viewUpdate _ _ _  | .pageWalk _ _  | .engineLeaseGrant _ _  | .leaseExpiry _ _  | .beatLand _ _  | .gcmCounterCheck _ _  | .gcmTagVerify _ _  | .continuationArrival _  | .arrivalQueueAccept _  | .homeReturn _  | .matrixStep _  | .matrixCommandEnd _  | .combInstanceStart _ _  | .combWaveStart _  | .submissionRingRead _  | .walkerIntakeDrain _  | .dispatchNode _  | .workgroupAdmission _ _ _  | .workgroupStart _  | .workgroupComplete _  | .nodeComplete _  | .preempttoExpiry _  | .saveAreaWrite _  | .contextRestore _ _ _  | .combInstanceRestore _  | .fqackRetry _ _  | .fqackSkip _ _  | .fqackKill _ _  | .tlbinvPage _ _  | .tlbinvFunction _  | .tlbinvWalkerCache _  | .attrReset _ _  | .sysregWrite _ _ _  | .usedHalving _  | .banklimWrite _ _ _  | .doorbell _ _ _  | .dispHalving  | .gangWaitExpiry _  | .gangPreExpiry _  | .gangUnplaceable _  | .launchPacket _ _ _ _ _  | .sliceCreate  | .addch  | .addcore  | .remch  | .remcore  | .movech  | .setparam  | .sliceDestroy  | .sliceCommandEnd  | .epochSweep _  | .granuleRetire _  | .coreUncorrectableError _ _  | .linkFailure _  | .mmioWrite _ _ _ _  | .mmioRead _ _ _  | .intcauseClear _ _ _  | .atsTranslationCompletion _ _ _ _  | .priPageResponse _ _ _ _  | .priTimeout _ _ _  | .atsInvalidateRequest _ _ _  | .atsInvalidateCompletion _  | .lockInterfaceRequest _  | .startInterfaceRequest _  | .stopInterfaceRequest _  | .ideKm _ _  | .ideIntegrityFailure _  | .pfFunctionConfigChange _  | .getCreni _ _  | .streamSet _ _ _ _ _  | .streamClr _ _  | .quiesceFunction _ _  | .quiesceComplete _  | .resumeFunction _  | .migkey _ _ _  | .dirtyRead _ _ _  | .exportPage _ _ _  | .exportState _  | .importPage _ _ _  | .importState _ _  | .peerRequest _ _ _ _ _  | .vcHold _ _  | .vcRelease _ _  | .bufferReservationGrant _  | .linkRetry _  | .collectiveAck _ _  | .powerUp  | .perst  | .pcieHotReset  | .functionLevelReset _  | .resetEngineCopy _  | .resetEngineGather _  | .resetEngineMatrix _  | .resetEngineComb _  | .resetEngineLead _  | .resetEngineCollective _  | .resetCore _ _  | .resetStack _  | .resetDie _  | .resetFunction _  | .resetSlice _  | .resetModuleWarm  | .moduleColdReset  | .resetComplete  | .startReady  | .startFailure _  | .startWatchdogExpiry  | .stageBegin  | .firmwareDataTransfer _  | .stageVerify _  | .fwActivate  | .activationSelfCheck _  | .stageAbort  | .evonosSync  | .telemetryRead _  | .telemetryRefresh _ _  | .pwrcapWrite _  | .throttleStageRaise _  | .throttleStageLower _  | .governorStep _ _  | .thermalWarning _ _  | .thermalHold _ _  | .thermalTrip _ _  | .thermalTripRelease _  | .coolantFlowLow _  | .completionTimeout _ _ _ _  | .keyExchange _ _ _  | .collectiveContributionArrival _ _ _  | .dieTlbUncorrectableError _  | .l2LineUncorrectableError _ _ _  | .hubDieError => 0

/-- The word of an instruction; 0 for a hardware step, which has no encoding. -/
def encode : Instr → Nat
  | .mov f => rrrWord 0x00 f
  | .iadd f => rrrWord 0x01 f
  | .isub f => rrrWord 0x02 f
  | .imul f => rrrWord 0x03 f
  | .imulhS f => rrrWord 0x04 f
  | .imulhU f => rrrWord 0x05 f
  | .imad f => rrrWord 0x06 f
  | .iaddI64 f => rrrWord 0x07 f
  | .isubI64 f => rrrWord 0x08 f
  | .imulI64 f => rrrWord 0x09 f
  | .bitAnd f => rrrWord 0x0A f
  | .bitOr f => rrrWord 0x0B f
  | .bitXor f => rrrWord 0x0C f
  | .shl f => rrrWord 0x0D f
  | .shrU f => rrrWord 0x0E f
  | .shrS f => rrrWord 0x0F f
  | .iminS f => rrrWord 0x10 f
  | .imaxS f => rrrWord 0x11 f
  | .iminU f => rrrWord 0x12 f
  | .imaxU f => rrrWord 0x13 f
  | .popc f => rrrWord 0x14 f
  | .clz f => rrrWord 0x15 f
  | .bfx f => rrrWord 0x16 f
  | .bfi f => rrrWord 0x17 f
  | .icmp f => rrrWord 0x18 f
  | .icmpI64 f => rrrWord 0x19 f
  | .isel f => rrrWord 0x1A f
  | .movi f => ri16Word 0x1B f
  | .movhi f => ri16Word 0x1C f
  | .iaddi f => rriWord 0x1D f
  | .andi f => rriWord 0x1E f
  | .ori f => rriWord 0x1F f
  | .shli f => rriWord 0x20 f
  | .shriU f => rriWord 0x21 f
  | .shriS f => rriWord 0x22 f
  | .leaTp f => rrrWord 0x23 f
  | .rdsp f => rrrWord 0x24 f
  | .pset f => rrrWord 0x25 f
  | .predv f => rrrWord 0x26 f
  | .vpred f => rrrWord 0x27 f
  | .shape f => rrrWord 0x28 f
  | .unify f => rrrWord 0x29 f
  | .xlaneFrom f => rrrWord 0x2A f
  | .xlaneBack f => rrrWord 0x2B f
  | .xlaneFwd f => rrrWord 0x2C f
  | .xlaneFlip f => rrrWord 0x2D f
  | .bcast f => rrrWord 0x2E f
  | .matchKey f => rrrWord 0x2F f
  | .mred f => rrrWord 0x30 f
  | .fadd f => rrrWord 0x40 f
  | .fsub f => rrrWord 0x41 f
  | .fmul f => rrrWord 0x42 f
  | .ffma f => rrrWord 0x43 f
  | .fopRm f => rrrWord 0x44 f
  | .fmin f => rrrWord 0x45 f
  | .fmax f => rrrWord 0x46 f
  | .fabs f => rrrWord 0x47 f
  | .fneg f => rrrWord 0x48 f
  | .fcmp f => rrrWord 0x49 f
  | .frcp f => rrrWord 0x4A f
  | .frsq f => rrrWord 0x4B f
  | .fsqrt f => rrrWord 0x4C f
  | .fex2 f => rrrWord 0x4D f
  | .flg2 f => rrrWord 0x4E f
  | .fsin f => rrrWord 0x4F f
  | .fcos f => rrrWord 0x50 f
  | .hop2 f => rrrWord 0x51 f
  | .hdot2 f => rrrWord 0x52 f
  | .cvtFI f => rrrWord 0x53 f
  | .cvtIF f => rrrWord 0x54 f
  | .cvtHF f => rrrWord 0x55 f
  | .cvtFH f => rrrWord 0x56 f
  | .cvtQF f => rrrWord 0x57 f
  | .cvtFQ f => rrrWord 0x58 f
  | .packH2 f => rrrWord 0x59 f
  | .packQ4 f => rrrWord 0x5A f
  | .zbenc f => rrrWord 0x5B f
  | .zbdec f => rrrWord 0x5C f
  | .lbind f => rrrWord 0x70 f
  | .lfree f => rrrWord 0x71 f
  | .ladd f => rrrWord 0x72 f
  | .lsub f => rrrWord 0x73 f
  | .lneg f => rrrWord 0x74 f
  | .lshl f => rrrWord 0x75 f
  | .lshrU f => rrrWord 0x76 f
  | .lshrS f => rrrWord 0x77 f
  | .lrot f => rrrWord 0x78 f
  | .lmad f => rrrWord 0x79 f
  | .lspill f => rrrWord 0x7A f
  | .lcmp f => rrrWord 0x7B f
  | .lld f => rrrWord 0x7C f
  | .lst f => rrrWord 0x7D f
  | .lstat f => rrrWord 0x7E f
  | .ldZ8 f => rrrWord 0x80 f
  | .ldS8 f => rrrWord 0x81 f
  | .ldZ16 f => rrrWord 0x82 f
  | .ldS16 f => rrrWord 0x83 f
  | .ldB32 f => rrrWord 0x84 f
  | .ldB64 f => rrrWord 0x85 f
  | .ldB128 f => rrrWord 0x86 f
  | .stB8 f => rrrWord 0x87 f
  | .stB16 f => rrrWord 0x88 f
  | .stB32 f => rrrWord 0x89 f
  | .stB64 f => rrrWord 0x8A f
  | .stB128 f => rrrWord 0x8B f
  | .ldAcqB32 f => rrrWord 0x8C f
  | .ldAcqB64 f => rrrWord 0x8D f
  | .stRelB32 f => rrrWord 0x8E f
  | .stRelB64 f => rrrWord 0x8F f
  | .atomAdd f => rrrWord 0x90 f
  | .atomMinS f => rrrWord 0x91 f
  | .atomMaxS f => rrrWord 0x92 f
  | .atomAnd f => rrrWord 0x93 f
  | .atomOr f => rrrWord 0x94 f
  | .atomXor f => rrrWord 0x95 f
  | .atomXchg f => rrrWord 0x96 f
  | .atomCas f => rrrWord 0x97 f
  | .atomFadd f => rrrWord 0x98 f
  | .atomBfadd2 f => rrrWord 0x99 f
  | .redAdd f => rrrWord 0x9A f
  | .redFadd f => rrrWord 0x9B f
  | .cache f => rrrWord 0x9C f
  | .fence f => rrrWord 0x9D f
  | .xfence f => rrrWord 0x9E f
  | .forage f => rrrWord 0xA0 f
  | .forageTry f => rrrWord 0xA1 f
  | .home f => rrrWord 0xA2 f
  | .fstat f => rrrWord 0xA3 f
  | .br f => brWord 0xA8 f
  | .brL f => brlWord 0xA9 f
  | .call f => brWord 0xAA f
  | .callL f => brlWord 0xAB f
  | .callr f => rrrWord 0xAC f
  | .jr f => rrrWord 0xAD f
  | .ret f => rrrWord 0xAE f
  | .exit f => rrrWord 0xAF f
  | .jset f => rrrWord 0xB0 f
  | .jadd f => rrrWord 0xB1 f
  | .join f => rrrWord 0xB2 f
  | .trail f => rrrWord 0xB3 f
  | .waitr f => rrrWord 0xB4 f
  | .vote f => rrrWord 0xB5 f
  | .wqPush f => rrrWord 0xB6 f
  | .wqPop f => rrrWord 0xB7 f
  | .brk f => rrrWord 0xB8 f
  | .cpL f => rrrWord 0xC0 f
  | .cpT f => rrrWord 0xC1 f
  | .cpG f => rrrWord 0xC2 f
  | .cpGcm f => rrrWord 0xC3 f
  | .cpStat f => rrrWord 0xC4 f
  | .cpCancel f => rrrWord 0xC5 f
  | .barInit f => rrrWord 0xC6 f
  | .barArrive f => rrrWord 0xC7 f
  | .barExpect f => rrrWord 0xC8 f
  | .barWait f => rrrWord 0xC9 f
  | .barTest f => rrrWord 0xCA f
  | .barInval f => rrrWord 0xCB f
  | .obres f => rrrWord 0xD0 f
  | .obrel f => rrrWord 0xD1 f
  | .mma f => rrrWord 0xD2 f
  | .mconv f => rrrWord 0xD3 f
  | .mzero f => rrrWord 0xD4 f
  | .mld f => rrrWord 0xD5 f
  | .mst f => rrrWord 0xD6 f
  | .mwait f => rrrWord 0xD7 f
  | .mstat f => rrrWord 0xD8 f
  | .cmode f => rrrWord 0xE0 f
  | .cbcast f => rrrWord 0xE1 f
  | .cldRow f => rrrWord 0xE2 f
  | .cstRow f => rrrWord 0xE3 f
  | .cmac f => rrrWord 0xE4 f
  | .cdot f => rrrWord 0xE5 f
  | .cred f => rrrWord 0xE6 f
  | .cwr f => rrrWord 0xE7 f
  | .clut f => rrrWord 0xE8 f
  | .cattn f => rrrWord 0xE9 f
  | .ctblWr f => rrrWord 0xEA f
  | .ctblSwap f => rrrWord 0xEB f
  | .csync f => rrrWord 0xEC f
  | .cstat f => rrrWord 0xED f
  | .nodeSpawn f => rrrWord 0xF0 f
  | .grp f => rrrWord 0xF1 f
  | .sysrd f => rrrWord 0xF2 f
  | .syswr f => rrrWord 0xF3 f
  | .trapi f => rrrWord 0xF4 f
  | .rti f => rrrWord 0xF5 f
  | .mov16 f => h16Word 0 f
  | .iadd16 f => h16Word 1 f
  | .isub16 f => h16Word 2 f
  | .imul16 f => h16Word 3 f
  | .bitAnd16 f => h16Word 4 f
  | .bitOr16 f => h16Word 5 f
  | .bitXor16 f => h16Word 6 f
  | .shl16 f => h16Word 7 f
  | .shrU16 f => h16Word 8 f
  | .shrS16 f => h16Word 9 f
  | .iminS16 f => h16Word 10 f
  | .imaxS16 f => h16Word 11 f
  | .fadd16 f => h16Word 12 f
  | .fsub16 f => h16Word 13 f
  | .fmul16 f => h16Word 14 f
  | .fmax16 f => h16Word 15 f
  | .unassignedOpcode w => w.toNat
  | .classLResultLand _ _ _ _ _  | .issueStarvation _  | .faultDelivery _  | .faultQueueWrite _  | .generalBlockGrant _  | .sfuQueueAdmit _  | .missBufferGrant _  | .engineQueueRoom _  | .homeRecordGrant _  | .engineHolderFree _  | .matrixQueueRoom _  | .combBufferRoom _  | .waggleEntryFree _  | .fenceWaitEnd _  | .applyAtHome _ _  | .viewUpdate _ _ _  | .pageWalk _ _  | .engineLeaseGrant _ _  | .leaseExpiry _ _  | .beatLand _ _  | .gcmCounterCheck _ _  | .gcmTagVerify _ _  | .continuationArrival _  | .arrivalQueueAccept _  | .homeReturn _  | .matrixStep _  | .matrixCommandEnd _  | .combInstanceStart _ _  | .combWaveStart _  | .submissionRingRead _  | .walkerIntakeDrain _  | .dispatchNode _  | .workgroupAdmission _ _ _  | .workgroupStart _  | .workgroupComplete _  | .nodeComplete _  | .preempttoExpiry _  | .saveAreaWrite _  | .contextRestore _ _ _  | .combInstanceRestore _  | .fqackRetry _ _  | .fqackSkip _ _  | .fqackKill _ _  | .tlbinvPage _ _  | .tlbinvFunction _  | .tlbinvWalkerCache _  | .attrReset _ _  | .sysregWrite _ _ _  | .usedHalving _  | .banklimWrite _ _ _  | .doorbell _ _ _  | .dispHalving  | .gangWaitExpiry _  | .gangPreExpiry _  | .gangUnplaceable _  | .launchPacket _ _ _ _ _  | .sliceCreate  | .addch  | .addcore  | .remch  | .remcore  | .movech  | .setparam  | .sliceDestroy  | .sliceCommandEnd  | .epochSweep _  | .granuleRetire _  | .coreUncorrectableError _ _  | .linkFailure _  | .mmioWrite _ _ _ _  | .mmioRead _ _ _  | .intcauseClear _ _ _  | .atsTranslationCompletion _ _ _ _  | .priPageResponse _ _ _ _  | .priTimeout _ _ _  | .atsInvalidateRequest _ _ _  | .atsInvalidateCompletion _  | .lockInterfaceRequest _  | .startInterfaceRequest _  | .stopInterfaceRequest _  | .ideKm _ _  | .ideIntegrityFailure _  | .pfFunctionConfigChange _  | .getCreni _ _  | .streamSet _ _ _ _ _  | .streamClr _ _  | .quiesceFunction _ _  | .quiesceComplete _  | .resumeFunction _  | .migkey _ _ _  | .dirtyRead _ _ _  | .exportPage _ _ _  | .exportState _  | .importPage _ _ _  | .importState _ _  | .peerRequest _ _ _ _ _  | .vcHold _ _  | .vcRelease _ _  | .bufferReservationGrant _  | .linkRetry _  | .collectiveAck _ _  | .powerUp  | .perst  | .pcieHotReset  | .functionLevelReset _  | .resetEngineCopy _  | .resetEngineGather _  | .resetEngineMatrix _  | .resetEngineComb _  | .resetEngineLead _  | .resetEngineCollective _  | .resetCore _ _  | .resetStack _  | .resetDie _  | .resetFunction _  | .resetSlice _  | .resetModuleWarm  | .moduleColdReset  | .resetComplete  | .startReady  | .startFailure _  | .startWatchdogExpiry  | .stageBegin  | .firmwareDataTransfer _  | .stageVerify _  | .fwActivate  | .activationSelfCheck _  | .stageAbort  | .evonosSync  | .telemetryRead _  | .telemetryRefresh _ _  | .pwrcapWrite _  | .throttleStageRaise _  | .throttleStageLower _  | .governorStep _ _  | .thermalWarning _ _  | .thermalHold _ _  | .thermalTrip _ _  | .thermalTripRelease _  | .coolantFlowLow _  | .completionTimeout _ _ _ _  | .keyExchange _ _ _  | .collectiveContributionArrival _ _ _  | .dieTlbUncorrectableError _  | .l2LineUncorrectableError _ _ _  | .hubDieError => 0

/-- The bytes of a word, lowest first (R11). -/
def wordBytes : Nat → Nat → List Byte
  | 0, _ => []
  | n + 1, w => BitVec.ofNat 8 w :: wordBytes n (w / 256)

/-- The instruction the decoder reads from an instruction whose low `nbits` bits are `w` and whose other
bits are 0, laid out little-endian as R18 stores it; none where the decoder refuses. -/
def decodeTableWord (nbits w : Nat) : Option Instr :=
  match decodeBytes (wordBytes 4 (w % 2 ^ nbits)) with
  | .ok (i, _) => some i
  | .error _ => none

end Sys2Proof
end

