-- ==== Sys2Proof/Machine/Fetch.lean ====
section
/-! DEFINITION. What a fetch fault and an ill-formed word do (R20, R40),
and the unassigned opcodes. -/
namespace Sys2Proof.Machine

/-- A fetch fault parks the group like a class-L fault: PC and RESUME are the address of the first
halfword, and the run ends before it (R20). -/
def State.fetchFault (s : State) (i : Nat) (x : Stop) : State :=
  match s.strand i with
  | none => s
  | some st =>
    let m := st.group
    let pc := (st.lane (lowest m)).pc
    let s := s.updStrand i (fun st =>
      let st := st.mapLanes m (fun k l =>
        { l with flts := l.flts ++ [s.mkFault st k x.code pc (pc.setWidth 64) 0 x.detail x.recov] })
      { st with run := some (st.run.getD ⟨m, 0, 0, []⟩) })
    (s.markRunEnd i).settle i

/-- A word that fails step 2 of R40 raises ILL_RES in every lane of the group. -/
def State.illWord (s : State) (w : Nat) : State := s.issue { hdOf (w / 4 % 256) w with ok := false } (fun s _ => .done { s := s })

/-- UNASSIGNED_OPCODE (R40): ILL_OPC. -/
def execUnassignedOpcode (w : BitVec 32) (s : State) : Res :=
  .next (s.issue ⟨OpRow.none, rrrOfWord w.toNat, false, 4, bit w.toNat 1, []⟩ (fun s _ => .done { s := s }))

end Sys2Proof.Machine
end

