-- ==== Sys2Proof/Machine/Limb.lean ====
section
/-! DEFINITION. The limb instructions: lanes bound as chains of 32-bit limbs (R154 to R172). -/
namespace Sys2Proof.Machine

/-- The limbs per chain of a bound warp. -/
def Strand.limbN (st : Strand) : Nat := 2 ^ st.lcr.log2n.toNat

/-- The value of chain c of a register read by `rd` (R154). -/
def chainVal (rd : Nat → Word) (n c : Nat) : Nat :=
  (List.range n).foldl (fun v k => v + (rd (c * n + k)).toNat * 2 ^ (32 * k)) 0

/-- Limb k of a chain value. -/
def limbOf (v k : Nat) : Word := BitVec.ofNat 32 (v / 2 ^ (32 * k))

/-- What one chain does: nothing where it traps, else the limbs it writes, if any, and the new `lcr`. -/
abbrev ChainOp := Iss → Nat → Nat → Lcr → Option (Option (Nat → Word) × Lcr)

/-- The lanes of chain c. -/
def chainMask (n c : Nat) : Word := maskOf (fun k => k / n == c)

/-- The chains all of whose lanes are in the group, and the lanes of the group in other chains (R160). -/
def Iss.chains (x : Iss) (n : Nat) : List Nat := (List.range (32 / n)).filter (fun c => x.m &&& chainMask n c == chainMask n c)
def Iss.strays (x : Iss) (n : Nat) : Word := maskOf (fun k => inMask x.m k && !(x.chains n).contains (k / n))

/-- Performs a limb instruction chain by chain: LIMB_BIND in an unbound warp, LIMB_DIVERGE in a chain only
partly in the group, LIMB_OVF in a chain that traps (R160, R164). -/
def limbBody (writes : Bool) (op : ChainOp) (s : State) (x : Iss) : Act :=
  if !x.st.bound then .done { s := s.trapLanes x.i x.m 0x10 x.pc 4 0 }
  else
    let n := x.st.limbN
    let (vals, lcr, bad) : List (Nat × (Nat → Word)) × Lcr × Word :=
      (x.chains n).foldl (fun (vs, l, b) c =>
        match op x n c l with
        | some (some v, l) => (vs ++ [(c, v)], l, b)
        | some (none, l) => (vs, l, b)
        | none => (vs, l, b ||| chainMask n c)) ([], x.st.lcr, 0)
    let m := maskOf (fun k => vals.any (fun e => e.1 == k / n))
    let val (k : Nat) : Word := match vals.find? (fun e => e.1 == k / n) with | some e => e.2 (k % n) | none => 0
    let s := s.putStrand x.i { (x.st.write32 m x.h.f.d.toNat val none) with lcr := lcr }
    let s := if bad = 0 then s else s.trapLanes x.i bad 0x12 x.pc 4 0
    let s := if x.strays n = 0 then s else s.trapLanes x.i (x.strays n) 0x11 x.pc 4 0
    .done { s := s, dst := if writes then .reg x.h.f.d.toNat else .nothing }

/-- The flags of one chain after an operation. -/
def Lcr.flags (l : Lcr) (c : Nat) (co ov : Bool) : Lcr := { l with carry := setFlag l.carry c co, ovf := setFlag l.ovf c ov }
def Lcr.setSpill (l : Lcr) (c : Nat) (v : Nat) : Lcr := { l with spill := l.spill.set c (BitVec.ofNat 32 v) }

/-- The signed reading of a chain value of n limbs. -/
def chainInt (n v : Nat) : Int := toSigned (32 * n) v

/-- Whether an integer lies outside the signed range of n limbs. -/
def chainOvf (n : Nat) (v : Int) : Bool := decide (v < -2 ^ (32 * n - 1)) || decide ((2 ^ (32 * n - 1) : Int) ≤ v)

/-- A result of n limbs with its flags, unless `.t` traps it. -/
def chainDone (t : Bool) (trap : Bool) (n c v : Nat) (co ov : Bool) (l : Lcr) : Option (Option (Nat → Word) × Lcr) :=
  if t && trap then none else some (some (limbOf (v % 2 ^ (32 * n))), l.flags c co ov)

def laddOp : ChainOp := fun x n c l =>
  let f := x.h.f
  let a := chainVal (x.st.src · f.a) n c; let b := chainVal (x.st.src · f.b) n c
  let ci : Nat := if bit f.x.toNat 0 && l.carry.getLsbD c then 1 else 0
  let v := a + b + ci
  let co := decide (2 ^ (32 * n) ≤ v)
  chainDone (bit f.x.toNat 1) co n c v co (chainOvf n (chainInt n a + chainInt n b + ci)) l

def lsubOp : ChainOp := fun x n c l =>
  let f := x.h.f
  let a := chainVal (x.st.src · f.a) n c; let b := chainVal (x.st.src · f.b) n c
  let bi : Nat := if bit f.x.toNat 0 && l.carry.getLsbD c then 1 else 0
  let co := decide (a < b + bi)
  chainDone (bit f.x.toNat 1) co n c (wrapTo (32 * n) ((a : Int) - b - bi)) co (chainOvf n (chainInt n a - chainInt n b - bi)) l

def lnegOp : ChainOp := fun x n c l =>
  let a := chainVal (x.st.src · x.h.f.a) n c
  let ov := a == 2 ^ (32 * n - 1)
  chainDone (bit x.h.f.x.toNat 1) ov n c (wrapTo (32 * n) (-(a : Int))) (a != 0) ov l

def lmadOp : ChainOp := fun x n c l =>
  let f := x.h.f
  let a := chainVal (x.st.src · f.a) n c
  let d := chainVal (fun k => x.st.reg32 k f.d.toNat) n c
  let v := a * (x.st.src (c * n) f.b).toNat + d
  let e := v / 2 ^ (32 * n)
  (chainDone (bit f.x.toNat 1) (e != 0) n c v (e != 0) false l).map (fun r => (r.1, r.2.setSpill c e))

/-- A shift of a chain by 0 to 31 bits (R165): kind 0 left, 1 right, 2 right signed. -/
def lshiftOp (kind : Nat) : ChainOp := fun x n c l =>
  let a := chainVal (x.st.src · x.h.f.a) n c
  let sh := (x.st.src (c * n) x.h.f.b).toNat % 32
  let (v, out) : Nat × Nat :=
    match kind with
    | 0 => (a * 2 ^ sh, a * 2 ^ sh / 2 ^ (32 * n))
    | 1 => (a / 2 ^ sh, (a % 2 ^ sh) * 2 ^ (32 - sh))
    | _ => (wrapTo (32 * n) (chainInt n a / 2 ^ sh), (a % 2 ^ sh) * 2 ^ (32 - sh))
  let out := out % 2 ^ 32
  some (some (limbOf (v % 2 ^ (32 * n))), (l.flags c (out != 0) false).setSpill c out)

def lrotOp : ChainOp := fun x n c l =>
  let r := (x.st.src (c * n) x.h.f.b).toNat % 32 % n
  some (some (fun k => x.st.src (c * n + (k + n - r) % n) x.h.f.a), l)

def lspillOp : ChainOp := fun x n c l =>
  match x.h.f.x.toNat % 4 with
  | 2 => some (none, { l with spill := l.spill.set c (x.st.src (c * n) x.h.f.a) })
  | 1 => some (some (fun _ => l.spill.getD c 0), { l with spill := l.spill.set c 0 })
  | _ => some (some (fun _ => l.spill.getD c 0), l)

/-- `lcmp` (R167): one predicate for every lane of a chain. -/
def lcmpBody (s : State) (x : Iss) : Act :=
  if !x.st.bound then .done { s := s.trapLanes x.i x.m 0x10 x.pc 4 0 }
  else
    let n := x.st.limbN
    let f := x.h.f
    let res (k : Nat) : Bool := intCond f.x.toNat (32 * n) (chainVal (x.st.src · f.a) n (k / n)) (chainVal (x.st.src · f.b) n (k / n))
    let m := maskOf (fun k => (x.chains n).contains (k / n))
    let s := s.putStrand x.i (x.st.writePred m (f.d.toNat % 8) res)
    .done { s := if x.strays n = 0 then s else s.trapLanes x.i (x.strays n) 0x11 x.pc 4 0 }

/-- `lstat` (R169): the read form in every lane of the group, the write form chain by chain. -/
def lstatBody (s : State) (x : Iss) : Act :=
  if bit x.h.f.x.toNat 0 then
    limbBody false (fun x n c l =>
      let v := (x.st.src (c * n) x.h.f.a).toNat
      some (none, l.flags c (bit v 4) (bit v 5))) s x
  else
    let l := x.st.lcr
    let n := x.st.limbN
    let word (k : Nat) : Word :=
      if x.st.bound then
        let c := k / n
        BitVec.ofNat 32 (c * 65536 + (k % n) * 256 + (if l.ovf.getLsbD c then 32 else 0) + (if l.carry.getLsbD c then 16 else 0) + l.log2n.toNat)
      else 0
    put32 s { x with g := x.m } word none

/-- `lbind` (R157). -/
def lbindBody (s : State) (x : Iss) : Act :=
  let whole := (List.range 32).all (fun k =>
    let l := x.st.lane k
    l.live && l.st != .away && l.st != .fault)
  if !(s.hdrOf x.st).limbs || !whole || x.m != 0xFFFFFFFF then .done { s := s.trapLanes x.i x.m 0x10 x.pc 4 0 }
  else .done { s := s.putStrand x.i { x.st with lcr := { Lcr.zero with log2n := BitVec.ofNat 3 x.h.f.x.toNat } } }

/-- `lld` and `lst` (R170): one access of 4N bytes a chain, at the pointer of its limb-0 lane. The binding in
force is kept in the sub-op of the pending instruction. -/
def limbMem (s : State) (x : Iss) : Act :=
  if !x.st.bound then .done { s := s.trapLanes x.i x.m 0x10 x.pc 4 0 }
  else
    let n := x.st.limbN
    let cs := x.chains n
    let heads := maskOf (fun k => k % n == 0 && cs.contains (k / n))
    match s.takeMisses { x with g := heads } (x.h.row.op == 0x7D) with
    | none => .stall .miss
    | some s =>
      let a := x.h.f.a.toNat
      let lanes := (List.range 32).filter (fun k => cs.contains (k / n))
      let caps := lanes.map (fun k => (⟨k, x.st.pair (k / n * n) a,
        if x.h.row.op == 0x7D then (x.st.reg32 k x.h.f.d.toNat).setWidth 128 else 0⟩ : Cap))
      let s := if x.strays n = 0 then s else s.trapLanes x.i (x.strays n) 0x11 x.pc 4 0
      memPend s { x with h := { x.h with f := { x.h.f with x := BitVec.ofNat 4 x.st.lcr.log2n.toNat } } } caps
        (if x.h.row.op == 0x7C then 1 else 0) false

def execLbind (f : Rrr) (s : State) : Res := .next (s.issue (hdOf 0x70 (rrrWord 0x70 f)) lbindBody)
def execLfree (f : Rrr) (s : State) : Res :=
  .next (s.issue (hdOf 0x71 (rrrWord 0x71 f)) fun s x => .done { s := s.putStrand x.i { x.st with lcr := Lcr.zero } })
def execLadd (f : Rrr) (s : State) : Res := .next (s.issue (hdOf 0x72 (rrrWord 0x72 f)) (limbBody true laddOp))
def execLsub (f : Rrr) (s : State) : Res := .next (s.issue (hdOf 0x73 (rrrWord 0x73 f)) (limbBody true lsubOp))
def execLneg (f : Rrr) (s : State) : Res := .next (s.issue (hdOf 0x74 (rrrWord 0x74 f)) (limbBody true lnegOp))
def execLshl (f : Rrr) (s : State) : Res := .next (s.issue (hdOf 0x75 (rrrWord 0x75 f)) (limbBody true (lshiftOp 0)))
def execLshrU (f : Rrr) (s : State) : Res := .next (s.issue (hdOf 0x76 (rrrWord 0x76 f)) (limbBody true (lshiftOp 1)))
def execLshrS (f : Rrr) (s : State) : Res := .next (s.issue (hdOf 0x77 (rrrWord 0x77 f)) (limbBody true (lshiftOp 2)))
def execLrot (f : Rrr) (s : State) : Res := .next (s.issue (hdOf 0x78 (rrrWord 0x78 f)) (limbBody true lrotOp))
def execLmad (f : Rrr) (s : State) : Res := .next (s.issue (hdOf 0x79 (rrrWord 0x79 f)) (limbBody true lmadOp))
def execLspill (f : Rrr) (s : State) : Res :=
  .next (s.issue (hdOf 0x7A (rrrWord 0x7A f)) (limbBody (f.x.toNat % 4 != 2) lspillOp))
def execLcmp (f : Rrr) (s : State) : Res := .next (s.issue (hdOf 0x7B (rrrWord 0x7B f)) lcmpBody)
def execLld (f : Rrr) (s : State) : Res := .next (s.issue (hdOf 0x7C (rrrWord 0x7C f)) limbMem)
def execLst (f : Rrr) (s : State) : Res := .next (s.issue (hdOf 0x7D (rrrWord 0x7D f)) limbMem)
def execLstat (f : Rrr) (s : State) : Res := .next (s.issue (hdOf 0x7E (rrrWord 0x7E f)) lstatBody)

end Sys2Proof.Machine
end

