-- ==== Sys2Proof/Machine/Slices.lean ====
section
/-! DEFINITION. Slices (R365 to R374, R383, R384): the slice commands, scrubbing and keys; and errors and their
containment (R376, R379 to R382). -/
namespace Sys2Proof.Machine

/-! ## Scrub (R383) -/

/-- Steps 1 to 3 and 5 of a scrub for a core. -/
def State.scrubCore (s : State) (c : Nat) : State :=
  (((s.wipeRange (accLoc c 0 0 0) 262144).wipeRange (scaleLoc c 0) 65536).wipeRange (sramLoc c 0) 4194304).setCore c (fun x => { x with
    leadHold := none, tlb := [], holder := none, resv := [], mqueue := [], arrivals := [] })

/-- Step 4 for a channel, whose commands have all ended. -/
def State.scrubBanks (s : State) (c : Nat) : State := (List.range 16).foldl (fun s b => s.setBank c b (fun _ => Bank.reset)) s

/-- Step 6 for a channel. -/
def State.scrubRows (s : State) (c : Nat) : State :=
  let s := (s.zeroRange (c * 2 ^ 30) (2 ^ 30)).setChan c (fun x => { x with epoch := 0, sweep := false, swept := [], exhausted := false })
  { s with
    gran := s.gran.map (fun e => if e.1 / 16384 == c then (e.1, { e.2 with attr := none, lost := false }) else e)
    poison := s.poison.filter (fun p => p / 2 ^ 25 != c)
    rowver := s.rowver.filter (fun r => r.1 / 2 ^ 20 != c)
    l2bad := s.l2bad.filter (fun l => l.2 / 2 ^ 24 != c) }

/-- Step 5 for a function: its translations, and the writes it has made that are not in the cells yet. -/
def State.scrubLines (s : State) (n : Nat) : State :=
  { s.tlbinvAll n with inflight := s.inflight.filter (fun w => !(w.fn == n && decide (w.loc < 2 ^ 41))) }

/-- Steps 1 to 6 over every resource of a slice. -/
def State.scrubSlice (s : State) (n : Nat) : State :=
  let s := (((s.cores_ n).foldl State.scrubCore s).scrubLines n)
  (s.channels n).foldl (fun s c => (s.scrubBanks c).scrubRows c) s

/-- Generates the key entry of a slice anew (R374). -/
def State.regenKey (s : State) (n : Nat) : State :=
  let ix := s.mg.keyDraws
  (s.setSlice n (fun x => { x with keyValid := true, keyGen := (x.keyGen + 1) % 65536, keyIx := ix })).setMg (fun m => { m with keyDraws := ix + 1 })

/-- Clears the GCM streams of a function (R401). -/
def Func.clearStreams (f : Func) : Func := { f with streams := List.replicate 8 ⟨false, 0, 0, 0⟩ }

/-! ## Work (R371) -/

/-- Whether a function holds work. -/
def State.holdsWork (s : State) (f : Nat) : Bool :=
  s.cxs.any (fun e => e.2.fn == f) || s.nodes.any (fun e => e.2.fn == f && e.2.st != .waiting) ||
  s.dies.any (fun d => d.2.queue.any (fun c => c.fn == f))

/-- The foragers a unit hosts or queues that live elsewhere (R278). -/
def State.guests (s : State) (u : Nat) : List (Nat × Strand) :=
  s.strands.filter (fun e => match e.2.fg with | some g => g.unit == some u && s.homeUnit e.2 != u | none => false)

/-- Whether every guest of a unit has come to the end of its run (R278). -/
def State.guestsAtRest (s : State) (u : Nat) : Bool := (s.guests u).all (fun e => !e.2.runEnd && e.2.run.isNone)

/-- Recalls the guests of a unit into their home records (R278). -/
def State.recallGuests (s : State) (u : Nat) : State :=
  let s := (s.guests u).foldl (fun s e =>
    s.seatHome e.1) s
  s.setArrivals u (fun _ => []) 0

/-! ## Slice commands (R366, R370 to R373) -/

def State.slcSlice (s : State) : Nat := bits64 s.mg.slcCmd 38 32
def State.slcTarget (s : State) : Nat := bits64 s.mg.slcCmd 9 0
def State.slcTo (s : State) : Nat := bits64 s.mg.slcCmd 29 20

/-- Whether a LOCKED slice has accepted the command (R372). -/
def State.slcAccepted (s : State) : Bool :=
  let r := (s.func s.slcSlice).reg 0x12A
  bits r 63 60 == s.mg.slcOp && r % 1024 == s.slcTarget && (s.mg.slcOp != 5 || bits r 29 20 == s.slcTo)

/-- Why the running slice command is refused, if it is (R370 to R372). -/
def State.slcRefused (s : State) : Option Nat :=
  let n := s.slcSlice
  let op := s.mg.slcOp
  let st := (s.slice n).st
  let t := s.slcTarget
  if (op == 0 || op == 7) && n == 0 then some 1
  else if op == 0 then (if st != 0 then some 2 else if (s.func n).ifState != 0 then some 5 else none)
  else if st == 0 then some 2
  else if st == 3 || (st == 2 && decide (6 ≤ op)) then some 5
  else if st == 2 && !s.slcAccepted then some 4
  else
    match op with
    | 1 => if s.chanSlice t != 65 then some 2 else none
    | 2 => if s.coreSlice t != 65 then some 2 else none
    | 3 => if s.chanSlice t != n then some 2 else if s.chanBusy t then some 3 else none
    | 4 => if s.coreSlice t != n then some 2 else if !(s.residents t).isEmpty then some 3 else none
    | 5 => if s.chanSlice t != n || s.chanSlice s.slcTo != 65 then some 2 else none
    | 6 => none
    | _ => if s.holdsWork n then some 3 else none

/-- Runs the command `op` when it is the one in SLCMD: a refusal is its result; otherwise `body` does its work. -/
def State.slcRun (s : State) (op : Nat) (body : State → State) : State :=
  if !s.mg.slcBusy || s.mg.slcOp != op || s.mg.slcPend.isSome then s
  else if s.mg.slcPhase then body s
  else
    match s.slcRefused with
    | some r =>
      let took := (s.slice s.slcSlice).st == 2 && 1 ≤ op && op ≤ 5 && s.slcAccepted
      let s := if took then s.setFunc s.slcSlice (fun f => f.setReg 0x12A 0) else s
      s.setMg (fun m => { m with slcPend := some r })
    | none =>
      let s := if (s.slice s.slcSlice).st == 2 && 1 ≤ op && op ≤ 5 then s.setFunc s.slcSlice (fun f => f.setReg 0x12A 0) else s
      body s

/-- The running command has done its work with a result; a target it closes stays closed to its end. -/
def State.slcDone (s : State) (r : Nat) : State := s.setMg (fun m => { m with slcPend := some r })

/-- REMCH and REMCORE refuse new accesses from now on (R371). -/
def State.slcClose (s : State) : State := s.setMg (fun m => { m with slcPhase := true })

/-- Changes the owner of a channel or core; 65 is nobody, 66 nobody while it is scrubbed. -/
def State.giveChan (s : State) (c n : Nat) : State := s.setMg (fun m => { m with chanOwner := tset m.chanOwner c n })
def State.giveCore (s : State) (c n : Nat) : State := s.setMg (fun m => { m with coreOwner := tset m.coreOwner c n })

/-- The parameter record, or none where a limit or res0 rule is broken (R366). -/
def sliceParams (b : List Byte) (x : Slice) : Option Slice :=
  let n (o k : Nat) : Nat := leAt b o k
  if n 0 1 / 2 != 0 || n 1 3 != 0 || n 8 2 == 0 || decide (64 < n 10 1) || n 11 1 != 0 || decide (512 < n 12 2) || n 14 2 != 0 ||
      n 16 4 == 0 || decide (65536 < n 16 4) || (b.drop 20).any (· != 0) then none
  else some { x with
    prot := bit (n 0 1) 0, dispw := n 4 2, leasew := n 6 2, stackw := n 8 2, fsq := n 10 1, barq := n 12 2, rpq := n 16 4 }

/-- Reads the parameter record of SLCARG and goes on with the slice it gives. -/
def State.withParams (s : State) (go : State → Slice → State) : State :=
  let p := s.mg.slcArg.toNat
  if !space0 p 8 then s.slcDone 6
  else
    match s.fnRead 80 0 p 32 with
    | (t, .wait) => s.takeWalks t
    | (s, .stop _ _) => s.slcDone 6
    | (s, .ok b) =>
      match sliceParams b (s.slice s.slcSlice) with
      | none => s.slcDone 1
      | some x => (go s x).slcDone 0

/-- CREATE (R368, R371, R374). -/
def execSliceCreate (s : State) : Res :=
  .next (s.slcRun 0 (fun s => s.withParams (fun s x =>
    let n := s.slcSlice
    ((s.setSlice n (fun _ => { x with st := 1 })).setFunc n (fun f => { f with mapgen := 0 })).regenKey n)))

/-- ADDCH (R371): the channel is scrubbed; it joins the slice when the command ends. -/
def execAddch (s : State) : Res := .next (s.slcRun 1 (fun s => (((s.giveChan s.slcTarget 66).scrubBanks s.slcTarget).scrubRows s.slcTarget).slcDone 0))

/-- ADDCORE (R371). -/
def execAddcore (s : State) : Res :=
  .next (s.slcRun 2 (fun s => (((s.giveCore s.slcTarget 66).scrubCore s.slcTarget).setCore s.slcTarget (fun c => { c with arrived := 0 })).slcDone 0))

/-- REMCH (R371): new accesses are refused, those in flight reach their homes or fault and the comb commands issued to its
banks end, then the channel is scrubbed, and free when the command ends. -/
def execRemch (s : State) : Res :=
  .next (s.slcRun 3 (fun s =>
    let t := s.slcTarget
    if !s.mg.slcPhase then s.slcClose
    else if s.inflight.any (fun w => isDram w.loc && chanOf w.loc == t) || (List.range 16).any (fun b => !(s.bank t b).buf.isEmpty) then s
    else (((s.giveChan t 66).scrubBanks t).scrubRows t).slcDone 0))

/-- REMCORE (R278, R371). -/
def execRemcore (s : State) : Res :=
  .next (s.slcRun 4 (fun s =>
    let t := s.slcTarget
    if !s.mg.slcPhase then s.slcClose
    else if !s.guestsAtRest t || s.inflight.any (fun w => w.overlaps (sramLoc t 0) 4194304) then s
    else ((s.recallGuests t).giveCore t 66).scrubCore t |>.slcDone 0))

/-- Copies the cells of n bytes from one place to another. -/
def mcopy (m : List Host.Cell) (src dst n : Nat) : List Host.Cell :=
  m.filter (fun e => decide (e.1 < dst)) ++
  (m.filter (fun e => decide (src ≤ e.1) && decide (e.1 < src + n))).map (fun e => (e.1 - src + dst, e.2)) ++
  m.filter (fun e => decide (dst + n ≤ e.1))

/-- Copies every row of a channel with its attributes and marks to another (R373). -/
def State.copyChan (s : State) (c d : Nat) : State :=
  let src := c * 2 ^ 30
  let dst := d * 2 ^ 30
  let s := s.scrubRows d
  let ws := s.applied.filter (fun w => w.overlaps src (2 ^ 30))
  let s := { s with mem := mcopy s.mem src dst (2 ^ 30) }
  let s := ws.foldl (fun s w => s.homeWrite (w.loc - src + dst) w.data) s
  let s := (s.gran.filter (fun e => e.1 / 16384 == c)).foldl (fun s e =>
    s.setGran (e.1 % 16384 + d * 16384) (fun g => { g with attr := e.2.attr, lost := e.2.lost, dirty := true })) s
  { s with poison := s.poison ++ (s.poison.filter (fun p => p / 2 ^ 25 == c)).map (fun p => p % 2 ^ 25 + d * 2 ^ 25) }

/-- MOVECH (R373): TO is scrubbed; its contents are TARGET's at the end of the command. -/
def execMovech (s : State) : Res := .next (s.slcRun 5 (fun s => (((s.giveChan s.slcTo 66).scrubBanks s.slcTo).scrubRows s.slcTo).slcDone 0))

/-- SETPARAM (R366, R367). -/
def execSetparam (s : State) : Res := .next (s.slcRun 6 (fun s => s.withParams (fun s x => s.setSlice s.slcSlice (fun _ => x))))

/-- DESTROY (R371, R383, R384): the resources belong to no slice while they are scrubbed, and are free at the end of the
command. -/
def execSliceDestroy (s : State) : Res :=
  .next (s.slcRun 7 (fun s =>
    let n := s.slcSlice
    let cs := s.cores_ n
    let hs := s.channels n
    let s := (s.setSlice n (fun x => { x with st := 3 })).scrubSlice n
    let s := hs.foldl (fun s c => s.giveChan c 66) (cs.foldl (fun s c => s.giveCore c 66) s)
    ((s.setSlice n (fun x => { x with keyValid := false })).setFunc n Func.clearStreams).slcDone 0))

/-- SLICE_COMMAND_END (R370): what takes effect at a command's end, RESULT, BUSY, the interrupt and MAPGEN. -/
def execSliceCommandEnd (s : State) : Res :=
  .next (
    match s.mg.slcPend with
    | none => s
    | some r =>
      let n := s.slcSlice
      let op := s.mg.slcOp
      let s : State :=
        if r != 0 then s
        else
          match op with
          | 1 => s.giveChan s.slcTarget n
          | 2 => s.giveCore s.slcTarget n
          | 3 => s.giveChan s.slcTarget 65
          | 4 => s.giveCore s.slcTarget 65
          | 5 => (s.copyChan s.slcTarget s.slcTo).giveChan s.slcTo n
          | 7 =>
            let free (t : Tab Nat) : Tab Nat := tmap t (fun n => if n == 66 then 65 else n)
            (s.setSlice n (fun x => { x with st := 0 })).setMg (fun m => { m with chanOwner := free m.chanOwner, coreOwner := free m.coreOwner })
          | _ => s
      let s := if r == 0 && ((1 ≤ op && op ≤ 5) || op == 7) then s.setFunc n (fun f => { f with mapgen := (f.mapgen + 1) % 65536 }) else s
      (s.setMg (fun m => { m with slcBusy := false, slcResult := r, slcPend := none, slcPhase := false })).cause 0 0)

/-! ## Errors (R376, R379 to R382, R391, R392) -/

/-- EPOCH_SWEEP (R376): the rows of a channel are at version 0 under the new epoch. -/
def execEpochSweep (chan : Nat) (s : State) : Res :=
  .next (if (s.chan chan).sweep then s.sweepChan chan else s)

/-- GRANULE_RETIRE (R381, R382): a granule whose accesses are held, because an error was found in it or the error policy
marked it, is remapped to a spare: invisibly when every sector reads cleanly, LOST otherwise. The last spare taken marks
the channel DEGRADED. -/
def execGranuleRetire (gran : Nat) (s : State) : Res :=
  .next (
    let c := gran / 16384
    let bad := s.poison.any (fun p => p / 2048 == gran)
    let count (s : State) (k : Count) : State := s.countError (s.chanSlice c) (4096 + c / 64) k
    if decide (2 ^ 24 ≤ gran) || !(s.granule gran).held then s
    else if 16 ≤ (s.chan c).spares then
      (s.setChan c (fun x => { x with degraded := true })).setGran gran (fun g => { g with held := false })
    else
      let s := (s.setChan c (fun x => { x with spares := x.spares + 1, degraded := x.degraded || x.spares == 15 })).setGran gran (fun g =>
        { g with spare := true, held := false, lost := g.lost || bad })
      let s := { s with poison := s.poison.filter (fun p => p / 2048 != gran) }
      let s := count s .retirement
      if bad then count s .pageLost else s)

/-- CORE_UNCORRECTABLE_ERROR (R379): the contexts resident on the core stop with MACHINE; a core that fails its
self-test leaves admission. -/
def execCoreUncorrectableError (core : Nat) (passed : Bool) (s : State) : Res :=
  .next (((s.machineStopAll (fun c => c.resident && c.core == core)).countError (s.coreSlice core) core).setCore core (fun c => { c with outOfService := c.outOfService || !passed }))

/-- Whether an access of a context that the die's TLB translates is under way: a class-L access or fetch of its threads, a
command its engines have started, or a matrix or comb command that goes through a pointer to virtual memory (R184). -/
def State.usesTlb (s : State) (die c : Nat) : Bool :=
  let virt (p : W64) : Bool := bits p.toNat 63 60 == 0
  s.strands.any (fun e => e.2.cx == c && dieOfUnit (s.unitOf e.2) == die && (e.2.stall == some .fetch ||
    e.2.pends.any (fun p => !p.caps.isEmpty && (p.op == 0xA0 || p.op == 0xA1 || (isMem p.op && p.caps.any (fun k => (s.capVa e.2 p k).isSome)))))) ||
  (s.die die).queue.any (fun q => q.cx == c && q.node.isNone && q.started) ||
  s.cores.any (fun e => e.1 / 16 == die && (e.2.mqueue.head?.map (fun m =>
    m.cx == c && ((m.op == 0xD5 || m.op == 0xD6) || (m.op == 0xD3 && m.shape.isEmpty)) && virt m.aBase)).getD false) ||
  s.banks.any (fun e => 64 + e.1 / 1024 == die && e.2.buf.any (fun b => b.inst == c && b.eff.isSome && (b.op == 0xE1 || b.op == 0xEA) && virt b.aVal))

/-- DIE_TLB_UNCORRECTABLE_ERROR (R379): the die's translation structures are invalidated; each context whose
access used them stops with MACHINE. -/
def execDieTlbUncorrectableError (die : Nat) (s : State) : Res :=
  .next (
    let s := s.setDie die (fun d => { d with tlb := [], wcache := [] })
    let s := { s with cores := s.cores.map (fun (e : Nat × Core) => if e.1 / 16 == die then (e.1, { e.2 with tlb := [] }) else e) }
    let used := s.cxs.filter (fun e => s.usesTlb die e.1)
    let s := ((used.map (fun e => e.2.slice)).eraseDups).foldl (fun s n => s.countError n (2048 + die)) s
    (used.map (·.1)).foldl State.machineStop s)

/-- L2_LINE_UNCORRECTABLE_ERROR (R379): POISON at the function's next access to the line. -/
def execL2LineUncorrectableError (die f line : Nat) (s : State) : Res :=
  .next (
    let s := s.countError f (2048 + die)
    if s.l2bad.contains (f, line) then s else { s with l2bad := (f, line) :: s.l2bad })

/-- Ends the nodes of a function: its contexts are killed without a save, and its nodes complete KILLED. -/
def State.killFunction (s : State) (f : Nat) : State :=
  let s := ((s.nodes.filter (fun e => e.2.fn == f && e.2.st != .waiting)).map (·.1)).foldl (fun s n => s.killNode n 7) s
  let s := ((s.cxs.filter (fun e => e.2.fn == f)).map (·.1)).foldl State.killCx s
  { s with intake := s.intake.filter (fun n => ((tget s.nodes n).map Node.fn) != some f) }

/-- Takes a function to ERROR (R391, R392): its writes that have not reached the host are given up with its work. -/
def State.toError (s : State) (f : Nat) : State :=
  let s := s.killFunction f
  ({ s with inflight := s.inflight.filter (fun w => !(w.fn == f && isHost w.loc)) }.setFunc f (fun x => { x with
    ifState := 3, quiesce := none, saved := false })).cause f 3

/-- An error contained to the module (R379, R380, R392, R411): a MACHINE record to every function, ERROR for those
in RUN or QUIESCED, and a module warm reset. -/
def State.moduleError (s : State) : State :=
  let s := (List.range 65).foldl (fun s f =>
    if (s.slice f).st == 0 then s
    else
      let s := s.walkerRecord f 0x3F 0 0
      if (s.func f).ifState == 2 || (s.func f).ifState == 4 then s.toError f else s) s
  s.setMg (fun m => m.request (6, 0, 0))

/-- LINK_FAILURE (R379): the link is taken down. -/
def execLinkFailure (link : Nat) (s : State) : Res :=
  .next (if s.mg.linksDown.contains link then s else (s.setMg (fun m => { m with linksDown := link :: m.linksDown })).moduleError)

/-- HUB_DIE_ERROR (R379). -/
def execHubDieError (s : State) : Res := .next s.moduleError

end Sys2Proof.Machine
end

