-- ==== Sys2Proof/Machine/Link.lean ====
section
/-! DEFINITION. The host link and trust (R389 to R409): ATS and PRI, interface states, quiesce and resume, the
Creni report, GCM streams, peers and fabrics, and live migration. A request that is not allowed is answered
`refused` and changes nothing (R392, R397). The first number of an answer is the request's own code of R397; the
TDISP requests, which have none there, use 0x80 on. -/
namespace Sys2Proof.Machine

/-! ## ATS and PRI (R394 to R396) -/

/-- The outstanding entry of a die for a page. -/
def State.atsEntry (s : State) (die f iova : Nat) : Option Ats := (s.die die).ats.find? (fun a => a.fn == f && a.iova == iova / 65536)

/-- Replaces the entry of a die for its page. -/
def State.putAts (s : State) (die : Nat) (a : Ats) : State :=
  s.setDie die (fun d => { d with ats := d.ats.filter (fun x => !(x.fn == a.fn && x.iova == a.iova)) ++ [a] })

/-- ATS_TRANSLATION_COMPLETION (R394). -/
def execAtsTranslationCompletion (die f : Nat) (iova : BitVec 57) (res : AtsReply) (s : State) : Res :=
  .next (match s.atsEntry die f iova.toNat with
    | some a => if a.reply.isSome then s else s.putAts die { a with reply := some res }
    | none => s)

/-- PRI_PAGE_RESPONSE (R395): Success is followed by a new translation, anything else is ATS_FAIL. -/
def execPriPageResponse (die f : Nat) (iova : BitVec 57) (ok : Bool) (s : State) : Res :=
  .next (match s.atsEntry die f iova.toNat with
    | some a =>
      if !a.pri then s
      else if ok then (s.putAts die { a with reply := none, pri := false, retried := true }).sendHost f (.atsRequest f (a.iova * 65536))
      else s.putAts die { a with reply := some .unsupported, pri := false }
    | none => s)

/-- PRI_TIMEOUT (R395). -/
def execPriTimeout (die f : Nat) (iova : BitVec 57) (s : State) : Res :=
  .next (match s.atsEntry die f iova.toNat with
    | some a => if a.pri then s.putAts die { a with reply := some .unsupported, pri := false } else s
    | none => s)

/-- COMPLETION_TIMEOUT (R394, R396): an ATS request ends ATS_FAIL; a copy engine's read aborts its command with
XLATE. -/
def execCompletionTimeout (die f : Nat) (iova : BitVec 57) (eng : Option Nat) (s : State) : Res :=
  .next (match eng with
    | none => (match s.atsEntry die f iova.toNat with
      | some a => if a.reply.isNone then s.putAts die { a with reply := some .unsupported } else s
      | none => s)
    | some e => (match s.cmdAt die e with
      | some c => if c.fn == f && c.started then (s.cmdEnd die c 2).engGoOn die e else s
      | none => s))

/-- ATS_INVALIDATE_REQUEST (R396): matching entries are removed from every die and core, answers and leaves of host pages
alike; an access that waits for a page request goes on waiting (R395). The completion waits. -/
def execAtsInvalidateRequest (f : Nat) (iova : BitVec 57) (pages : Nat) (s : State) : Res :=
  .next (
    if 32 ≤ s.mg.invalidations.length then s
    else
      let p := iova.toNat / 65536
      let hit (a : Ats) : Bool := a.fn == f && a.reply.isSome && !a.pri && decide (p ≤ a.iova) && decide (a.iova < p + pages)
      let held (e : TlbEnt) : Bool :=
        let pte := Pte.mk e.leaf.toNat
        let at_ := (if e.ats.isSome then e.base else pte.pa) / 65536
        e.fn == f && (e.ats.isSome || pte.host) && decide (p < at_ + e.size / 65536) && decide (at_ < p + pages)
      let s := { s with
        dies := tmap s.dies (fun d => { d with ats := d.ats.filter (fun a => !hit a), tlb := d.tlb.filter (fun e => !held e) })
        cores := tmap s.cores (fun c => { c with tlb := c.tlb.filter (fun e => !held e) }) }
      s.setMg (fun m => { m with invalidations := m.invalidations ++ [(m.nextTag, f, p, pages)], nextTag := m.nextTag + 1 }))

/-- ATS_INVALIDATE_COMPLETION (R396): sent once every translated access of the function to the host has been
applied or aborted. -/
def execAtsInvalidateCompletion (tag : Nat) (s : State) : Res :=
  .next (match s.mg.invalidations.find? (fun i => i.1 == tag) with
    | some i =>
      if s.inflight.any (fun w => w.fn == i.2.1 && isHost w.loc) then s
      else (s.setMg (fun m => { m with invalidations := m.invalidations.filter (fun i => i.1 != tag) })).send (.invalidateDone tag)
    | none => s)

/-! ## Interface states (R368, R391, R392) -/

/-- The session a message arrives in (R397, R410). -/
def State.viaSession (s : State) : Option Session := s.mg.sessions[s.mg.via]?

/-- Whether a message's session is bound to a function, which is enumerated: a request that names another is answered with
an error and changes nothing (R392, R397, R418). -/
def State.session (s : State) (f : Nat) : Bool := s.enumerated f && s.viaSession.any (fun x => x.fn == some f)

/-- Whether a message's session is one of the module owner's (R410). -/
def State.byOwner (s : State) : Bool := s.viaSession.any Session.owner

/-- What a TDISP report says of a function (R391): the state, and the Icwelar vendor field, which says that RUN is
QUIESCED. -/
def State.tdispReport (s : State) (f : Nat) : List Byte :=
  if (s.func f).ifState == 4 then [2, 1] else [BitVec.ofNat 8 (s.func f).ifState, 0]

/-- Moves a function's interface to a state. -/
def State.setIf (s : State) (f n : Nat) : State := (s.setFunc f (fun x => { x with ifState := n })).cause f 3

/-- The slice descriptor of measurement 5 (R398). -/
def State.descriptor (s : State) (f : Nat) : List Byte :=
  let x := s.slice f
  (s.channels f).flatMap (toLE 2) ++ (s.cores_ f).flatMap (toLE 2) ++
  toLE 4 (if x.prot then 1 else 0) ++ toLE 2 x.dispw ++ toLE 2 x.leasew ++ toLE 2 x.stackw ++ toLE 2 x.fsq ++ toLE 4 x.barq ++ toLE 4 x.rpq ++
  zeros 12 ++ toLE 2 (s.func f).mapgen ++ toLE 2 x.keyGen

/-- LOCK_INTERFACE_REQUEST (R368, R392, R398). -/
def execLockInterfaceRequest (f : Nat) (s : State) : Res :=
  .next (
    if !s.session f || f == 0 || (s.func f).ifState != 0 || (s.slice f).st != 1 || s.holdsWork f then s.send (.refused 0x80 f)
    else
      let d := sha3 (s.descriptor f)
      (((s.setSlice f (fun x => { x with st := 2 })).setFunc f (fun x => { x with meas5 := some d })).setIf f 1).send (.accepted 0x80))

/-- Kills the work of a function: its nodes complete KILLED, those of the walker's that can be written (R392, R413). -/
def State.endNodes (s : State) (f : Nat) : Nat → State
  | 0 => s
  | n + 1 =>
    let s := s.killFunction f
    match s.nodes.find? (fun e => e.2.fn == f && e.2.st == .done) with
    | none => s
    | some e => let t := s.wk (wkComplete e.1 e.2); { t with nodes := tdel t.nodes e.1 }.endNodes f n

/-- Takes a function's interface back to CONFIG_UNLOCKED (R392): work killed, the slice scrubbed by steps 1 to 6,
its key entry regenerated, its streams cleared. -/
def State.stopInterface (s : State) (f : Nat) : State :=
  let s := s.endNodes f (s.nodes.length + 4096)
  let s := { s with
    nodes := s.nodes.filter (fun (e : Nat × Node) => e.2.fn != f)
    inflight := s.inflight.filter (fun w => w.fn != f) }
  let s := ((s.scrubSlice f).regenKey f).setFunc f (fun x => { x.clearStreams with
    quiesce := none, saved := false, heldLaunch := [], meas5 := none, fqWait := [], fqWaitOf := [], fqPosted := [], fqStuck := false, replays := [] })
  (s.setSlice f (fun x => { x with st := 1 })).setIf f 0

/-- STOP_INTERFACE_REQUEST (R392). -/
def execStopInterfaceRequest (f : Nat) (s : State) : Res :=
  .next (if !s.session f || (s.func f).ifState == 0 then s.send (.refused 0x82 f) else (s.stopInterface f).send (.accepted 0x82))

/-- ERROR from RUN or QUIESCED (R392). -/
def State.errorFrom (s : State) (f : Nat) : State := if (s.func f).ifState == 2 || (s.func f).ifState == 4 then s.toError f else s

/-- IDE_INTEGRITY_FAILURE (R392). -/
def execIdeIntegrityFailure (f : Nat) (s : State) : Res := .next (s.errorFrom f)
/-- PF_FUNCTION_CONFIG_CHANGE (R392, R398): the function's settings are other ones. -/
def execPfFunctionConfigChange (f : Nat) (s : State) : Res := .next ((s.setFunc f (fun x => { x with cfgGen := x.cfgGen + 1 })).errorFrom f)
/-- IDE_KM (R389, R397): sets the key of the function's IDE stream. -/
def execIdeKm (f : Nat) (key : BitVec 256) (s : State) : Res :=
  .next (if !s.session f then s.send (.refused 0x83 f) else (s.setFunc f (fun x => { x with ide := some key })).send (.accepted 0x83))

/-- KEY_EXCHANGE (R397, R410): a new session, bound to a function or serving Evonos; `owner` says that its requester
presented the module owner's certificate. What follows arrives in it. -/
def execKeyExchange (f : Option Nat) (owner : Bool) (transcript : BitVec 512) (s : State) : Res :=
  .next (s.setMg (fun m => { m with sessions := m.sessions ++ [⟨f, owner, transcript⟩], via := m.sessions.length }))

/-! ## Quiesce and resume (R393) -/

/-- Whether a thread stands at the stop point of a forced full save. -/
def Strand.halted (st : Strand) : Bool :=
  st.liveMask == 0 || (st.quiet && (st.run.isNone || st.stall.any Stall.stops))

/-- Whether every step of a quiesce but the save is done. -/
def State.quiesceDone (s : State) (f : Nat) : Bool :=
  s.cxs.all (fun e => e.2.fn != f || !e.2.resident || s.strands.all (fun t => t.2.cx != e.1 || t.2.halted)) &&
  s.dies.all (fun d => d.2.queue.all (fun c => c.fn != f || c.op != 0xC3 || !c.started)) &&
  s.cores.all (fun k => match k.2.mqueue with
    | [] => true
    | m :: _ => ((s.cx m.cx).map Cx.fn) != some f || m.rests) &&
  s.insts.all (fun i => ((s.cx i.2.cx).map Cx.fn) != some f || i.2.outCmds.isEmpty) &&
  s.inflight.all (fun w => w.fn != f || !isHost w.loc)

/-- Begins to quiesce a function. -/
def State.quiesceBegin (s : State) (f : Nat) (save : Bool) : State :=
  let s := s.setFunc f (fun x => { x with quiesce := some save })
  let mine := (s.cxs.filter (fun e => e.2.fn == f)).map (·.1)
  let s := mine.foldl State.force s
  if save then mine.foldl State.requestSave s else s

/-- QUIESCE (R393). -/
def execQuiesceFunction (f : Nat) (save : Bool) (s : State) : Res :=
  .next (if !s.session f || (s.func f).ifState != 2 || (s.func f).quiesce.isSome then s.send (.refused 4 f) else (s.quiesceBegin f save).send (.accepted 4))

/-- QUIESCE_COMPLETE (R393): the function is QUIESCED once every step is done; with SAVE, contexts that found no
save area are requested again until each is saved. -/
def execQuiesceComplete (f : Nat) (s : State) : Res :=
  .next (match (s.func f).quiesce with
    | none => s
    | some save =>
      if (s.func f).ifState != 2 || !s.quiesceDone f then s
      else
        let left := s.cxs.filter (fun e => e.2.fn == f && e.2.resident)
        if save && !left.isEmpty then (left.map (·.1)).foldl State.requestSave s
        else (s.setFunc f (fun x => { x with quiesce := none, saved := save })).setIf f 4)

/-- Held contexts continue; a context with a save under way keeps its request. -/
def State.unhold (s : State) (f : Nat) : State :=
  let s := { s with cxs := tmap s.cxs (fun c => if c.fn == f && c.preempt.isNone then { c with forced := false } else c) }
  s.setFunc f (fun x => { x with quiesce := none, saved := false })

/-- An activation in progress holds a function, which resumes with the others (R417). -/
def State.holdFor (s : State) (f : Nat) : State :=
  s.setMg (fun m => { m with actHeld := if m.actHeld.contains f then m.actHeld else m.actHeld ++ [f] })

/-- START_INTERFACE_REQUEST (R392): dispatch begins; during an activation the function is quiesced like the others
(R417). -/
def execStartInterfaceRequest (f : Nat) (s : State) : Res :=
  .next (
    if !s.session f || (s.func f).ifState != 1 then s.send (.refused 0x81 f)
    else
      let s := s.setIf f 2
      (if s.mg.fwstate == 3 then (s.quiesceBegin f false).holdFor f else s).send (.accepted 0x81))

/-- RESUME (R392, R393): during an activation the function goes on at its end (R417). -/
def execResumeFunction (f : Nat) (s : State) : Res :=
  .next (
    if !s.session f || (s.func f).ifState != 4 then s.send (.refused 5 f)
    else (if s.mg.fwstate == 3 then s.holdFor f else ((s.unhold f).setIf f 2).heldGo f 64).send (.accepted 5))

/-! ## Attestation and streams (R397 to R401) -/

/-- The first 576 bytes of a Creni report (R399). -/
def State.creni (s : State) (f : Nat) (nonce : BitVec 256) (transcript : BitVec 512) : List Byte :=
  let x := s.slice f
  let chs := s.channels f
  let cos := s.cores_ f
  let bank := if s.mg.activeB then s.mg.bankB else s.mg.bankA
  let meas (i : Nat) : BitVec 512 :=
    match i with
    | 1 => sha3 Config.bootRom
    | 3 => sha3 (Config.imagePart 3 bank.bytes ++ toLE 3 Mgmt.reset.leaseCyc ++ (List.range 16).flatMap (fun i => toLE 1 (tgetD Mgmt.reset.banklim i 8)))
    | 5 => ((s.func f).meas5).getD (sha3 (s.descriptor f))
    | 6 => sha3 (Config.tdi f (s.func f).cfgGen)
    | _ => sha3 (Config.imagePart i bank.bytes)
  toLE 2 0xC4E1 ++ toLE 2 1 ++ toLE 3 Config.deviceId.toNat ++ toLE 1 f ++ toLE 1 (s.func f).ifState ++ toLE 1 x.st ++ toLE 2 (if x.prot then 1 else 0) ++
  toLE 2 (s.func f).mapgen ++ toLE 2 x.keyGen ++ toLE 4 bank.ver.toNat ++ toLE 2 chs.length ++ toLE 2 cos.length ++ zeros 8 ++
  toLE 32 nonce.toNat ++ toLE 64 transcript.toNat ++ (List.range' 1 6).flatMap (fun i => toLE 64 (meas i).toNat) ++
  toLE 64 (sha3 (chs.flatMap (toLE 2) ++ cos.flatMap (toLE 2))).toNat

/-- GET_CRENI (R399, R400): the report names the session it travels in. -/
def execGetCreni (f : Nat) (nonce : BitVec 256) (s : State) : Res :=
  .next (match s.viaSession with
    | none => s.send (.refused 1 f)
    | some x =>
      if !s.session f then s.send (.refused 1 f)
      else let b := s.creni f nonce x.transcript; s.send (.bytes 1 (b ++ toLE 4627 (Config.sign b).toNat)))

/-- STREAM_SET (R401). -/
def execStreamSet (f n : Nat) (key : BitVec 256) (sid : Word) (last : W64) (s : State) : Res :=
  .next (if !s.session f || ((s.func f).ifState != 1 && (s.func f).ifState != 2) || 8 ≤ n then s.send (.refused 2 f)
    else (s.setFunc f (fun x => { x with streams := x.streams.set n ⟨true, sid, last, key⟩ })).send (.accepted 2))

/-- STREAM_CLR (R397). -/
def execStreamClr (f n : Nat) (s : State) : Res :=
  .next (if !s.session f || ((s.func f).ifState != 1 && (s.func f).ifState != 2) || 8 ≤ n then s.send (.refused 3 f)
    else (s.setFunc f (fun x => { x with streams := x.streams.modify n (fun g => { g with valid := false }) })).send (.accepted 3))

/-! ## Peers and fabrics (R193, R403 to R406) -/

/-- Bytes as they travel to or from another device in an access to an E or EIR page (R404): IV, ciphertext, and the tag
that binds them to the request. -/
def sealBytes (dev : Nat) (iv : BitVec 96) (request bs : List Byte) : List Byte :=
  let ct := gcmXor (Config.pairKey dev) iv 0 bs
  toBE 12 iv.toNat ++ ct ++ gcmTag (Config.pairKey dev) iv request ct

/-- Answers a peer's request with the bytes at a place, sealed where they are encrypted there (R404). -/
def State.peerAnswer (s : State) (dev : Nat) (request bs : List Byte) (hidden : Bool) : State :=
  if !hidden then s.peerSend 1 dev bs
  else
    let iv : BitVec 96 := Config.freeW64 s.freeCtr ++ Config.freeWord s.freeCtr
    { s with freeCtr := s.freeCtr + 1 }.peerSend 1 dev (sealBytes dev iv request bs)

/-- A flit or frame that fails its check is sent again; the retry is counted (R406, R421). -/
def State.linkRetry (s : State) (port : Nat) : State := s.setMg (fun m => { m with counters := tcount m.counters (16384 + port) })

/-- PEER_REQUEST (R193, R212, R393, R403, R404): another device's access to a region this device exports. A refusal carries
the fault code and the detail; a function that is quiesced answers RETRY, 0x100. A write of an E or EIR page comes sealed,
and one that fails its check comes again (R406). -/
def execPeerRequest (dev : BitVec 20) (pfunc sfunc : Nat) (off : BitVec 40) (op : PeerOp) (s : State) : Res :=
  .next (
    let from_ := dev.toNat
    if s.retries pfunc then s.send (.refused 0x100 from_)
    else if !s.enumerated pfunc then s.send (.refused 0x0B from_)
    else
      let (n, need, atomic) : Nat × Need × Bool := match op with
        | .read n => (n, { r := true }, false)
        | .write d | .release d | .sealed _ _ d _ => (d.length, { w := true }, false)
        | .atomic _ k _ => (k, { r := true, w := true }, true)
      match s.exportPlace from_ sfunc pfunc off.toNat n need atomic (decide (n ≤ 16)) with
      | (s, .place a _ f) =>
        if s.homeHeld a then s else
        match s.homeRefuses f a n need.w with
        | some x => (s.afterRefusal f a n need.w x).send (.refused (x.code + 256 * x.detail) from_)
        | none =>
          let old := s.homeRead a n
          let request := toLE 3 from_ ++ toLE 1 pfunc ++ toLE 1 sfunc ++ toLE 5 off.toNat ++ toLE 4 n
          let hidden := isDram a && s.rowAttr (a / 1024) != 0
          match op with
          | .read _ => s.peerAnswer from_ request old hidden
          | .write d => if hidden then s.linkRetry (Config.portOf from_) else (s.peerWrite f 80 a d).1
          | .release d => if hidden then s.linkRetry (Config.portOf from_) else (s.peerWrite f 80 a d true).1
          | .sealed strong iv d tag =>
            if gcmTag (Config.pairKey from_) iv request d != toBE 16 tag.toNat then s.linkRetry (Config.portOf from_)
            else (s.peerWrite f 80 a (gcmXor (Config.pairKey from_) iv 0 d) strong).1
          | .atomic o k v =>
            ((s.peerWrite f 80 a (toLE k (atomOp o (8 * k) (leNat old) (v.toNat % 2 ^ 64) (v.toNat / 2 ^ 64))) true).1).peerAnswer from_ request old hidden
      | (s, .stop x) => s.send (.refused (x.code + 256 * x.detail) from_)
      | (s, _) => s)

/-- The messages that may leave now leave, and the collective nodes that waited for them go on (R405, R407). -/
def State.linkGo (s : State) : State :=
  let s := s.linkDrain
  (s.nodes.filter (fun e => e.2.coll.isSome)).foldl (fun s e => s.collOver e.1) s

/-- HOLD (R405): a channel's sender stops within 64 flits, of which it still sends an undetermined number. -/
def execVcHold (port vc : Nat) (s : State) : Res :=
  .next (if 4 ≤ vc then s else
    { s with freeCtr := s.freeCtr + 1 }.setMg (fun m => { m with vcs := tset m.vcs (4 * port + vc) ((Config.freeByte s.freeCtr).toNat % 65) }))
/-- RELEASE (R405). -/
def execVcRelease (port vc : Nat) (s : State) : Res :=
  .next (if 4 ≤ vc then s else (s.setMg (fun m => { m with vcs := tdel m.vcs (4 * port + vc) })).linkGo)
/-- BUFFER_RESERVATION_GRANT (R405): the long message that waits at a port may enter the network. -/
def execBufferReservationGrant (port : Nat) (s : State) : Res :=
  .next ((s.setMg (fun m => { m with reserved := if m.reserved.contains port then m.reserved else port :: m.reserved })).linkGo)
/-- LINK_RETRY (R406, R421). -/
def execLinkRetry (port : Nat) (s : State) : Res := .next (s.linkRetry port)

/-! ## Live migration (R408, R409) -/

/-- Whether a granule lies in a channel of a function. -/
def State.ownGran (s : State) (f g : Nat) : Bool := decide (g < 2 ^ 24) && s.chanSlice (g / 16384) == f

/-- The IV of an exported granule (R408). -/
def migIv (g ctr : Nat) : BitVec 96 := BitVec.ofNat 96 (g * 2 ^ 64 + ctr % 2 ^ 64)

/-- MIGKEY (R397, R408). -/
def execMigkey (f : Nat) (key : BitVec 256) (peer : BitVec 20) (s : State) : Res :=
  .next (if !s.session f || ((s.func f).ifState != 1 && (s.func f).ifState != 2) then s.send (.refused 6 f)
    else (s.setFunc f (fun x => { x with migKey := some key, migPeer := peer, importCtr := 0 })).send (.accepted 6))

/-- DIRTY_READ (R408): the dirty bits of a range of granules are returned, lowest granule in bit 0, and cleared. -/
def execDirtyRead (f first count : Nat) (s : State) : Res :=
  .next (if !s.session f || ((s.func f).ifState != 2 && (s.func f).ifState != 4) then s.send (.refused 7 f)
    else
      let gs := (List.range' first count).map (fun g => if s.ownGran f g then (s.granule g).dirty else false)
      let bytes := (List.range ((count + 7) / 8)).map (fun i =>
        BitVec.ofNat 8 ((List.range 8).foldl (fun v k => if gs.getD (8 * i + k) false then v + 2 ^ k else v) 0))
      let inRange (g : Nat) : Bool := decide (first ≤ g) && decide (g < first + count) && s.ownGran f g
      { s with gran := s.gran.map (fun (e : Nat × Gran) => if inRange e.1 then (e.1, { e.2 with dirty := false }) else e) }.send (.bytes 7 bytes))

/-- EXPORT_PAGE (R408). -/
def execExportPage (f gran : Nat) (buf : W64) (s : State) : Res :=
  .next (match (s.func f).migKey with
    | none => s.send (.refused 8 f)
    | some key =>
      if !s.session f || ((s.func f).ifState != 2 && (s.func f).ifState != 4) || !s.ownGran f gran then s.send (.refused 8 f)
      else
        let s := (s.setGran gran (fun g => { g with dirty := false })).setFunc f (fun x => { x with exportCtr := x.exportCtr + 1 })
        let bad := (s.poison.filter (fun p => p / 2048 == gran)).map (· % 2048)
        let plain := (s.homeRead (gran * 65536) 65536).mapIdx (fun i b => if bad.contains (i / 32) then 0 else b)
        let ctr := (s.func f).exportCtr
        let head := toLE 32 (Config.pageHeader gran (s.granule gran).attr bad (s.granule gran).lost).toNat
        let ct := gcmXor key (migIv gran ctr) 0 plain
        let tag := gcmTag key (migIv gran ctr) head ct
        (s.homeWrite (hostLoc buf.toNat) (head ++ ct ++ tag)).send (.accepted 8))

/-- IMPORT_PAGE (R408): the tag and a counter above the last one imported are required; a failed import writes
nothing. -/
def execImportPage (f : Nat) (buf counter : W64) (s : State) : Res :=
  .next (match (s.func f).migKey with
    | none => s.send (.refused 0xA f)
    | some key =>
      let b := s.homeRead (hostLoc buf.toNat) 65584
      let (index, attr, bad, lost) := Config.readHeader (BitVec.ofNat 256 (leAt b 0 32))
      let gran := index.toNat
      let ct := (b.drop 32).take 65536
      let iv := migIv gran counter.toNat
      if !s.session f || (s.func f).ifState != 1 || !s.ownGran f gran || counter.toNat ≤ (s.func f).importCtr ||
          b.drop 65568 != gcmTag key iv (b.take 32) ct then s.send (.refused 0xA f)
      else
        let s := (s.homeWrite (gran * 65536) (gcmXor key iv 0 ct)).touch (gran * 65536) 65536
        let s := s.setGran gran (fun g => { g with attr := attr, lost := lost })
        let s := { s with poison := s.poison.filter (fun p => p / 2048 != gran) ++ (bad.filter (· < 2048)).map (fun p => gran * 2048 + p) }
        (s.setFunc f (fun x => { x with importCtr := counter.toNat })).send (.accepted 0xA))

/-- The function-scope state of R409 as numbers below 2^64: registers, parameters and streams. -/
def State.exportRegs (s : State) (f : Nat) : List Nat :=
  let x := s.func f
  let p := s.slice f
  let own := x.regs.filter (fun e => !sysPf e.1)
  [own.length] ++ own.flatMap (fun e => [e.1, e.2.toNat]) ++ [x.sqHead, x.fqTail] ++
  [if p.prot then 1 else 0, p.dispw, p.leasew, p.stackw, p.fsq, p.barq, p.rpq] ++
  x.streams.flatMap (fun g => [if g.valid then 1 else 0, g.sid.toNat, g.last.toNat] ++ (List.range 4).map (fun i => g.key.toNat / 2 ^ (64 * i) % 2 ^ 64))

/-- One saved context: its node's record and progress, itself, and the bytes of its save area. -/
def State.exportCx (s : State) (f : Nat) (c : Cx) : Option (List Nat) :=
  match tget s.nodes c.node with
  | none => none
  | some n =>
    let slot := c.saveSlot.getD 0
    let len := if c.core < 1024 then (match s.fnRead 80 f (c.area + 64) 4 with | (_, .ok b) => leNat b | _ => 0) else 54784
    match s.fnRead 80 f c.area len with
    | (_, .ok b) =>
      some ([n.record.toNat, n.status, n.nextWg, n.completed.length] ++ n.completed ++
        [c.wg, if c.core < 1024 then 0 else 1, slot, c.readyAge, match c.frame with | some k => k + 1 | none => 0, len] ++ b.map BitVec.toNat)
    | _ => none

/-- EXPORT_STATE (R397, R409), after a QUIESCE with SAVE: the IV, which the spec leaves open, what crosses, encrypted under
the migration key, and the tag. -/
def execExportState (f : Nat) (s : State) : Res :=
  .next (
    let mine := (s.cxs.filter (fun e => e.2.fn == f)).map (·.2)
    match (s.func f).migKey with
    | none => s.send (.refused 9 f)
    | some key =>
      if !s.session f || (s.func f).ifState != 4 || !(s.func f).saved || mine.any Cx.resident then s.send (.refused 9 f)
      else
        match mine.mapM (s.exportCx f) with
        | none => s.send (.refused 9 f)
        | some cs =>
          let image := s.exportRegs f ++ [cs.length] ++ cs.flatten
          let iv : BitVec 96 := Config.freeW64 s.freeCtr ++ Config.freeWord s.freeCtr
          let ct := gcmXor key iv 0 (image.flatMap (toLE 8))
          { s with freeCtr := s.freeCtr + 1 }.send (.bytes 9 (toBE 12 iv.toNat ++ ct ++ gcmTag key iv [] ct)))

/-- Reads one number of an image. -/
abbrev Im := StateT (List Nat) Option
def imNat : Im Nat := do
  match ← get with
  | x :: xs => set xs; pure x
  | [] => failure
def imList (n : Nat) : Im (List Nat) := do
  let l ← get
  if l.length < n then failure else set (l.drop n); pure (l.take n)

/-- One context of an image. -/
structure ImCx where
  record : Nat
  status : Nat
  nextWg : Nat
  completed : List Nat
  wg : Nat
  comb : Bool
  slot : Nat
  age : Nat
  frame : Nat
  bytes : List Nat

def imCx : Im ImCx := do
  let h ← imList 4
  let done ← imList (h.getD 3 0)
  let t ← imList 6
  let b ← imList (t.getD 5 0)
  pure ⟨h.getD 0 0, h.getD 1 0, h.getD 2 0, done, t.getD 0 0, t.getD 1 0 == 1, t.getD 2 0, t.getD 3 0, t.getD 4 0, b⟩

def imCxs : Nat → Im (List ImCx)
  | 0 => pure []
  | n + 1 => do let c ← imCx; let cs ← imCxs n; pure (c :: cs)

/-- A whole image: registers, SQCFG.HEAD and FQTAIL, parameters, streams, contexts. -/
def imAll : Im (List Nat × List Nat × List Nat × List ImCx) := do
  let n ← imNat
  let regs ← imList (2 * n)
  let mid ← imList 9
  let streams ← imList 56
  let k ← imNat
  let cs ← imCxs k
  pure (regs, mid, streams, cs)

/-- The node of an imported context: the one already imported for its record, or its record read and validated. -/
def wkImportNode (f : Nat) (c : ImCx) : Wk (Option Nat) := do
  let s ← get
  match s.nodes.find? (fun e => e.2.fn == f && e.2.record.toNat == c.record) with
  | some e => pure (some e.1)
  | none =>
    match ← wkRead f c.record 64 with
    | .error _ => pure none
    | .ok b =>
      match ← (vkNode (← get) (Node.of b (BitVec.ofNat 64 c.record) f) b).run with
      | .error _ => pure none
      | .ok n =>
        let i ← wkAdd { n with
          st := if c.nextWg < n.nwg then .pool else .running, status := c.status, nextWg := c.nextWg, completed := c.completed
          startedAt := some s.clock, readyAge := c.age }
        pure (some i)

/-- Installs an imported context: its save area, and threads that wait for their restore. -/
def wkImportCx (f : Nat) (c : ImCx) : Wk Bool := do
  match ← wkImportNode f c with
  | none => pure false
  | some i =>
    match ← wkWrite f ((← get).areaVa f c.slot) (c.bytes.map (BitVec.ofNat 8)) with
    | some _ => pure false
    | none =>
      let s ← get
      match tget s.nodes i with
      | none => pure false
      | some n =>
        let id := s.nextId
        let held (ls : List Lane) : List Lane := ls.map (fun l => if l.live then { l with st := .fault } else l)
        let nw := n.hdr.warps
        let warps := (List.range nw).map (fun w =>
          (id + 1 + w, { Strand.at .L id 0 32 with wid := w, lanes := held (startLanes n.hdr n.body Ord.empty w) }))
        let parts : List (Nat × Strand) := if c.comb then [(id + 1, Strand.at .S id 0 1)]
          else if n.hdr.lead then warps ++ [(id + 1 + nw, Strand.at .D id 0 1)] else warps
        let unit := if c.comb then 1024 else 0
        let r := s.func f
        let cx := { Cx.at n.hdr n.body unit (parts.map (·.1)) (if n.hdr.lead && !c.comb then some (id + 1 + nw) else none) with
          args := n.args, node := i, wg := c.wg, fn := f, slice := f, resident := false, savedForm := some 2, saveSlot := some c.slot, area := s.areaVa f c.slot
          frame := if c.frame = 0 then none else some (c.frame - 1), privBase := r.reg 0x003, privStride := r.reg 0x004 % 4096
          prio := n.prio, readyAge := c.age, admittedAt := s.clock, order := n.order }
        let inst : Inst := ⟨id, id + 1, 0, true, 0, 0, false, 0, 0, 0, [], [], 0⟩
        let s := { s with
          strands := parts.foldl (fun (t : Tab Strand) (e : Nat × Strand) => tset t e.1 e.2) s.strands, cxs := tset s.cxs id cx
          insts := if c.comb then tset s.insts id inst else s.insts, nextId := id + nw + 3 }
        set (s.setFunc f (fun x => { x with
          saveAreas := c.slot :: x.saveAreas, frames := if c.frame = 0 then x.frames else (c.frame - 1) :: x.frames }))
        pure true

/-- The numbers of an image that another device has exported, where its tag is right under the migration key (R409). -/
def openImage (key : BitVec 256) (b : List Byte) : Option (List Nat) :=
  let iv := BitVec.ofNat 96 (beNat (b.take 12))
  let n := b.length - 28
  let ct := (b.drop 12).take n
  if b.length < 28 || b.drop (12 + n) != gcmTag key iv [] ct then none
  else let p := gcmXor key iv 0 ct; some ((List.range (n / 8)).map (fun i => leAt p (8 * i) 8))

/-- IMPORT_STATE (R409): installs the image of an EXPORT_STATE, decrypted under the migration key; one that fails its check
or cannot be installed whole changes nothing. -/
def execImportState (f : Nat) (image : List Byte) (s : State) : Res :=
  .next (
    match (s.func f).migKey.bind (fun key => (openImage key image).bind imAll.run) with
    | none => s.send (.refused 0xB f)
    | some ((regs, mid, streams, cs), _) =>
      if !s.session f || (s.func f).ifState != 1 then s.send (.refused 0xB f)
      else
        let m (i : Nat) : Nat := mid.getD i 0
        let t := s.setFunc f (fun x => { x with
          regs := (List.range (regs.length / 2)).foldl (fun r i => tset r (regs.getD (2 * i) 0) (BitVec.ofNat 64 (regs.getD (2 * i + 1) 0))) []
          sqHead := m 0, fqTail := m 1
          streams := (List.range 8).map (fun i => let g (k : Nat) : Nat := streams.getD (7 * i + k) 0
            ⟨g 0 == 1, BitVec.ofNat 32 (g 1), BitVec.ofNat 64 (g 2), BitVec.ofNat 256 (g 3 + g 4 * 2 ^ 64 + g 5 * 2 ^ 128 + g 6 * 2 ^ 192)⟩) })
        let t := t.setSlice f (fun x => { x with
          prot := m 2 == 1, dispw := m 3, leasew := m 4, stackw := m 5, fsq := m 6, barq := m 7, rpq := m 8 })
        match (cs.mapM (wkImportCx f)).run.run t with
        | (some oks, t) => if oks.all id then t.send (.accepted 0xB) else s.send (.refused 0xB f)
        | (none, t) => s.takeWalks t)

end Sys2Proof.Machine
end

