-- ==== Sys2Proof/Machine/Manage.lean ====
section
/-! DEFINITION. Management (R410 to R427): the reset hierarchy, firmware banks and activation, starting, SYNC,
telemetry, power and temperature. A command that is not allowed is answered `refused` and changes nothing; what
an answer is about is 0x40 SYNC, 0x41 telemetry, 0x42 PWRCAP, 0x43 on the firmware commands. -/
namespace Sys2Proof.Machine

/-! ## The firmware banks (R415) -/

def Mgmt.bank (m : Mgmt) (b : Bool) : FwBank := if b then m.bankB else m.bankA
def Mgmt.setBank (m : Mgmt) (b : Bool) (x : FwBank) : Mgmt := if b then { m with bankB := x } else { m with bankA := x }

/-- Whether a bank is valid: its signature verifies, and its SVN is at least MINSVN as that stands now. -/
def Mgmt.bankValid (m : Mgmt) (b : Bool) : Bool := (m.bank b).valid && decide (m.minsvn ≤ (m.bank b).svn)

/-! ## Requesting and running resets (R411 to R413) -/

/-- Requests a reset. -/
def State.request (s : State) (r : Nat × Nat × Nat) : State := s.setMg (fun m => m.request r)

/-- POWER_UP (R411). -/
def execPowerUp (s : State) : Res := .next (s.request (7, 0, 0))
/-- PERST (R411). -/
def execPerst (s : State) : Res := .next (s.request (7, 0, 0))
/-- PCIE_HOT_RESET (R411). -/
def execPcieHotReset (s : State) : Res := .next (s.request (6, 0, 0))
/-- FUNCTION_LEVEL_RESET (R411, R418): of a VF that is enumerated. -/
def execFunctionLevelReset (f : Nat) (s : State) : Res := .next (if 1 ≤ f ∧ f ≤ s.totalVfs then s.request (4, 0, f) else s)

/-- Whether this reset is the next to run: none runs, no activation is under way, and it is first in the queue, or
the queue is empty and it is asked for in a session of the owner's. -/
def State.resetNext (s : State) (r : Nat × Nat × Nat) : Bool :=
  s.mg.rstRun.isNone && (s.mg.fwstate != 3 || r.1 == 7) &&
  (match s.mg.rstQueue with
   | [] => s.byOwner
   | q :: _ => q == r)

/-- The reset has ended its work with a result. -/
def State.resetPend (s : State) (r : Nat) : State := s.setMg (fun m => { m with rstPend := some r })

/-- What taking work off a target needs to know (R413): the contexts on it, the units whose guests are recalled,
where a context saved here is restored first, and the function whose work ends. -/
structure Target where
  on : State → Nat → Cx → Bool := fun _ _ _ => false
  units : List Nat := []
  first : Option Nat := none
  kill : Option Nat := none

/-- The contexts resident on a target. -/
def State.onTarget (s : State) (t : Target) : List Nat := (s.cxs.filter (fun e => e.2.resident && t.on s e.1 e.2)).map (·.1)

/-- Asks for a forced full save of a context and its gang, where a save area allows one; otherwise its node is
killed (R326, R328, R413). -/
def State.forceOff (s : State) (first : Option Nat) (c : Nat) : State :=
  match s.cx c with
  | none => s
  | some cx =>
    let s := if cx.saveSlot.isNone then (s.gangCxs c).foldl State.requestSave s else s
    if ((s.cx c).bind Cx.saveSlot).isNone then s.killNode cx.node 7
    else
      let s := s.force c
      match first with
      | some u => s.setMg (fun m => { m with rstSaved := if m.rstSaved.contains (c, u) then m.rstSaved else (c, u) :: m.rstSaved })
      | none => s

/-- Whether every node that a reset has killed has completed (R413). -/
def Target.over (t : Target) (s : State) : Bool := t.kill.all (fun f => s.nodes.all (fun n => n.2.fn != f || n.2.st != .done))

/-- One turn of a reset below module level (R413): the guests are recalled, then the contexts are saved or killed, and
their nodes complete, then the target is reset. -/
def State.resetTurn (s : State) (t : Target) (ready : State → Bool) (act : State → State × Nat) : State :=
  let s := match t.kill with | some f => s.killFunction f | none => s
  if !t.units.all s.guestsAtRest || !t.over s then s
  else
    let s := t.units.foldl State.recallGuests s
    let s := (s.onTarget t).foldl (State.forceOff · t.first) s
    if !(s.onTarget t).isEmpty || !ready s then s
    else let (s, r) := act s; s.resetPend r

/-- Asks for a reset that cannot start: it is queued where a session of the owner's asks for it, and refused where one that
is not queued is asked for otherwise (R410, R411). -/
def State.askReset (s : State) (r : Nat × Nat × Nat) : State :=
  if s.byOwner then s.request r else if s.mg.rstQueue.contains r then s else s.send (.refused 0x48 r.1)

/-- Runs reset r: it starts when it is next, or goes on with the work of a turn. `bad` is the result of a reset that is
refused. -/
def State.resetRun (s : State) (r : Nat × Nat × Nat) (bad : Option Nat) (t : Target) (ready : State → Bool) (act : State → State × Nat) : State :=
  if s.mg.rstRun == some r then (if s.mg.rstPend.isSome then s else s.resetTurn t ready act)
  else if s.resetNext r then
    let s := s.setMg (fun m => { m with
      rstRun := some r, rstPend := none, rstQueue := m.rstQueue.drop 1, rstBusy := true, rstLevel := r.1
      rstSaved := m.rstSaved.filter (fun e => (s.cx e.1).any (fun c => !c.resident)) })
    match bad with
    | some x => s.resetPend x
    | none => s.resetTurn t ready act
  else s.askReset r

/-- The result BADARG of a target at or above a limit, or below another. -/
def badTarget (t lo hi : Nat) : Option Nat := if t < lo ∨ hi ≤ t then some 1 else none

/-! ## What each level clears (R414) -/

/-- Whether the engine runs a `cp.gcm` that has to end first. -/
def State.gcmRuns (s : State) (die eng : Nat) : Bool :=
  ((tget (s.die die).engines eng).bind Lease.cmd).any (fun i => (s.die die).queue.any (fun c => c.id == i && c.op == 0xC3 && c.started))

/-- The command in progress goes back to its queue and the engine is free. -/
def State.engineReset (s : State) (die eng : Nat) : State :=
  match tget (s.die die).engines eng with
  | none => s
  | some l =>
    match l.cmd.bind (fun i => (s.die die).queue.find? (fun c => c.id == i)) with
    | none => s.leaseEnd die eng
    | some c => (s.setDie die (fun d => { d with queue := c :: d.queue.filter (fun q => q.id != c.id) })).leaseEnd die eng

/-- RESET_ENGINE_COPY (R414): target 16 × die + engine. -/
def execResetEngineCopy (target : Nat) (s : State) : Res :=
  .next (s.resetRun (0, 0, target) (badTarget target 0 1024) {} (fun s => !s.gcmRuns (target / 16) (target % 16))
    (fun s => (s.engineReset (target / 16) (target % 16), 0)))

/-- RESET_ENGINE_GATHER (R414): target 4 × die + engine. -/
def execResetEngineGather (target : Nat) (s : State) : Res :=
  .next (s.resetRun (0, 1, target) (badTarget target 0 256) {} (fun _ => true)
    (fun s => (s.engineReset (target / 4) (16 + target % 4), 0)))

/-- RESET_ENGINE_MATRIX (R414). -/
def execResetEngineMatrix (target : Nat) (s : State) : Res :=
  .next (s.resetRun (0, 2, target) (badTarget target 0 1024)
    { on := fun s c x => x.core == target && (s.core target).holder == some c, first := some target } (fun _ => true)
    (fun s => ((((s.wipeRange (accLoc target 0 0 0) 262144).wipeRange (scaleLoc target 0) 65536).setCore target (fun x => { x with
      resv := [], mqueue := [] })), 0)))

/-- RESET_ENGINE_COMB (R413, R414): once the commands that other instances have given the channel's banks have ended. -/
def execResetEngineComb (target : Nat) (s : State) : Res :=
  .next (s.resetRun (0, 3, target) (badTarget target 0 1024)
    { on := fun s c _ => (tget s.insts c).any (fun i => i.chan == target), first := some (2048 + target) }
    (fun s => (List.range 16).all (fun b => (s.bank target b).buf.isEmpty))
    (fun s => (s.scrubBanks target, 0)))

/-- RESET_ENGINE_LEAD (R414). -/
def execResetEngineLead (target : Nat) (s : State) : Res :=
  .next (s.resetRun (0, 4, target) (badTarget target 0 1024)
    { on := fun _ _ x => x.core == target && x.hdr.lead, first := some target } (fun _ => true)
    (fun s => (s.setCore target (fun x => { x with leadHold := none }), 0)))

/-- RESET_ENGINE_COLLECTIVE (R414): the node in progress on the engine completes CANCELLED. -/
def execResetEngineCollective (target : Nat) (s : State) : Res :=
  .next (s.resetRun (0, 5, target) (badTarget target 0 16) {} (fun _ => true)
    (fun s => (((s.nodes.filter (fun e => e.2.coll.any (fun c => c.eng == target))).map (·.1)).foldl (fun s n => s.collEnd n 1) s, 0)))

/-- RESET_CORE (R414): steps 1 to 5 and a self-test. -/
def execResetCore (target : Nat) (passed : Bool) (s : State) : Res :=
  .next (s.resetRun (1, 0, target) (badTarget target 0 1024) { on := fun _ _ x => x.core == target, units := [target] } (fun _ => true)
    (fun s => if passed then (s.scrubCore target, 0)
      else ((s.scrubCore target).setCore target (fun c => { c with outOfService := true }), 3)))

/-- RESET_STACK (R414): stack cores, comb units, forager slots and arrival queues; DRAM is kept. -/
def execResetStack (target : Nat) (s : State) : Res :=
  let us := (List.range 16).map (fun i => 1024 + 16 * target + i)
  .next (s.resetRun (2, 0, target) (badTarget target 0 16) { on := fun _ _ x => us.contains x.core, units := us } (fun _ => true)
    (fun s => (us.foldl (fun s u => (s.setArrivals u (fun _ => []) 0).clearArrived u) ((List.range 64).foldl (fun s i => s.scrubBanks (64 * target + i)) s), 0)))

/-- The self-test pass of a core that is reset with its die: what it finds is a free value (R414). -/
def State.selfTest (s : State) (core : Nat) : State :=
  let ok := (Config.freeByte s.freeCtr).toNat % 2 = 0
  { s with freeCtr := s.freeCtr + 1 }.setCore core (fun c => { c with outOfService := c.outOfService || !decide ok })

/-- RESET_DIE (R414): every core with its self-test, the engine pool, L2, translation structures, the vector clock and the
cycle counter. -/
def execResetDie (target : Nat) (s : State) : Res :=
  let cs := (List.range 16).map (fun i => 16 * target + i)
  .next (s.resetRun (3, 0, target) (badTarget target 0 64) { on := fun _ _ x => cs.contains x.core, units := cs }
    (fun s => !(List.range 16).any (s.gcmRuns target) && s.inflight.all (fun w => w.die != target))
    (fun s =>
      let out (s : State) : List Bool := cs.map (fun c => (s.core c).outOfService)
      let was := out s
      let s := cs.foldl State.selfTest (cs.foldl State.scrubCore s)
      let bad := out s != was
      let s := (List.range 20).foldl (fun s e => s.engineReset target e) s
      (s.setDie target (fun d => { d with
        tlb := [], wcache := [], misses := [], ats := d.ats.filter (fun a => a.reply.isNone), used := [], halvings := 0, cycleBase := s.clock }), if bad then 3 else 0)))

/-- The work of a function, killed, is over: its contexts and what waits for its nodes. -/
def State.endWork (s : State) (f : Nat) : State :=
  let s := s.killFunction f
  { s with nodes := s.nodes.filter (fun (e : Nat × Node) => e.2.fn != f) }

/-- RESET_FUNCTION (R414): target 1 to 64. -/
def execResetFunction (target : Nat) (s : State) : Res :=
  .next (s.resetRun (4, 0, target) (badTarget target 1 65) { kill := some target } (fun _ => true) (fun s =>
    let s := if (s.func target).ifState == 0 then s.endWork target else s.stopInterface target
    (s.setFunc target (fun x => { x with
      regs := [], sqHead := 0, fqTail := 0, fqWait := [], fqWaitOf := [], fqPosted := [], fqStuck := false, replays := [], saveAreas := [], frames := []
      quiesce := none, saved := false, intcause := 0, heldLaunch := [] }), 0)))

/-- RESET_SLICE (R414): target 1 to 64; STATE for a LOCKED or SCRUBBING slice. -/
def execResetSlice (target : Nat) (s : State) : Res :=
  .next (s.resetRun (5, 0, target)
    ((badTarget target 1 65).or (if (s.slice target).st == 2 || (s.slice target).st == 3 then some 2 else none)) { kill := some target }
    (fun _ => true) (fun s =>
      if (s.slice target).st == 0 then (s, 0)
      else
        let s := s.endWork target
        let s := { s with inflight := s.inflight.filter (fun w => w.fn != target) }
        ((s.scrubSlice target).regenKey target, 0)))

/-! ## Module resets (R414) -/

/-- The lowest stage that the holds allow. -/
def Mgmt.floor (m : Mgmt) : Nat := if m.hold4 then 4 else if m.hold3 then 3 else 0

/-- The cells of memory outside the module: the host's and the peers'. -/
def outsideMem (m : List Host.Cell) : List Host.Cell := m.filter (fun e => decide (2 ^ 64 ≤ e.1))

/-- The spare-granule map. -/
def spareMap (g : Tab Gran) : Tab Gran := (g.filter (fun e => e.2.spare)).map (fun e => (e.1, { Gran.reset with spare := true }))
def spareChans (c : Tab Chan) : Tab Chan :=
  (c.filter (fun e => e.2.spares != 0 || e.2.degraded)).map (fun e => (e.1, { Chan.reset with degraded := e.2.degraded, spares := e.2.spares }))

/-- The module after a warm reset (R414). -/
def State.warmReset (s : State) : State :=
  let m := s.mg
  { State.reset with
    mem := outsideMem s.mem, gran := spareMap s.gran, chans := spareChans s.chans
    agenda := s.agenda, clock := s.clock, freeCtr := s.freeCtr, nextId := s.nextId, out := s.out
    dies := s.dies.map (fun (e : Nat × Die) => (e.1, { Die.reset with used := e.2.used, halvings := e.2.halvings, cycleBase := e.2.cycleBase }))
    cores := s.cores.map (fun (e : Nat × Core) => (e.1, { Core.reset with outOfService := e.2.outOfService, clockStep := e.2.clockStep }))
    funcs := s.funcs.map (fun (e : Nat × Func) => (e.1, { Func.reset with
      ide := e.2.ide, migKey := e.2.migKey, migPeer := e.2.migPeer, exportCtr := e.2.exportCtr, importCtr := e.2.importCtr, cfgGen := e.2.cfgGen }))
    slices := (0, { Slice.zero with keyGen := ((s.slice 0).keyGen + 1) % 65536, keyIx := m.keyDraws }) ::
      (s.slices.filter (fun e => e.1 != 0)).map (fun e => (e.1, { Slice.absent with keyGen := e.2.keyGen }))
    mg := { Mgmt.reset with
      bankA := m.bankA, bankB := m.bankB, activeB := m.activeB, minsvn := m.minsvn, fwstate := m.fwstate, failcnt := m.failcnt
      reason := m.reason, boot := m.boot, syncSeq := m.syncSeq, counters := m.counters, records := m.records, linksDown := m.linksDown
      hostLink := m.hostLink, sup := m.sup, sout := m.sout, vcs := m.vcs, reserved := m.reserved
      power := m.power, pwrcap := m.pwrcap, stage := m.floor, hold3 := m.hold3, hold4 := m.hold4, tripped := m.tripped, temps := m.temps
      flow := m.flow, disp := m.disp, keyDraws := m.keyDraws + 1, nextTag := m.nextTag, sessions := m.sessions, via := m.via
      rstBusy := m.rstBusy, rstLevel := m.rstLevel, rstResult := m.rstResult, rstRun := m.rstRun, rstPend := m.rstPend
      rstQueue := m.rstQueue } }

/-- The module at the beginning of a cold start (R414, R418, R421): flash contents only. The boot ROM selects the active
bank if it is valid, the other otherwise; where neither is, the start fails with reason 0x09 and no other can begin: the
module is in recovery mode (notes/assumptions/64.md). -/
def State.coldReset (s : State) : State :=
  let m := s.mg
  let none_ := !m.bankValid true && !m.bankValid false
  { State.reset with
    mem := outsideMem s.mem, gran := spareMap s.gran, chans := spareChans s.chans
    agenda := s.agenda, freeCtr := s.freeCtr, nextId := s.nextId, out := s.out
    slices := [(0, { Slice.zero with keyIx := m.keyDraws })]
    mg := { Mgmt.reset with
      bankA := m.bankA, bankB := m.bankB, activeB := if m.bankValid m.activeB || none_ then m.activeB else !m.activeB
      minsvn := m.minsvn, failcnt := if none_ then min 3 (m.failcnt + 1) else m.failcnt, reason := if none_ then 9 else m.reason
      boot := if none_ then 2 else 0, counters := m.counters.filter (fun e => decide (e.1 < 2 ^ 22)), keyDraws := m.keyDraws + 1
      hostLink := m.hostLink, sup := m.sup, sout := m.sout } }

/-- RESET_MODULE_WARM (R414). -/
def execResetModuleWarm (s : State) : Res :=
  .next (s.resetRun (6, 0, 0) none {} (fun _ => true) (fun s => (s.warmReset, 0)))

/-- MODULE_COLD_RESET (R414): it abandons an activation (R417); after a thermal trip it waits for the release (R426). -/
def execModuleColdReset (s : State) : Res :=
  .next (if s.resetNext (7, 0, 0) && !s.mg.tripped then s.coldReset else s.askReset (7, 0, 0))

/-- RESET_COMPLETE (R412): RESULT, BUSY and the completion interrupt. -/
def execResetComplete (s : State) : Res :=
  .next (match s.mg.rstRun, s.mg.rstPend with
    | some _, some r =>
      (s.setMg (fun m => { m with rstResult := r, rstBusy := false, rstRun := none, rstPend := none })).cause 0 0
    | _, _ => s)

/-! ## Starting (R418, R419) -/

/-- START_READY (R418): of a start from a valid bank. -/
def execStartReady (s : State) : Res :=
  .next (if s.mg.boot != 0 || !s.mg.bankValid s.mg.activeB then s else s.setMg (fun m => { m with boot := 1, failcnt := 0, minsvn := max m.minsvn (m.bank m.activeB).svn }))

/-- A start fails with a reason: a new start from the other bank if that is valid, or recovery mode. -/
def State.startFails (s : State) (reason : Nat) : State :=
  if s.mg.boot != 0 then s
  else s.setMg (fun m =>
    let n := m.failcnt + 1
    if 3 ≤ n then { m with failcnt := 3, reason := reason, boot := 2 }
    else { m with failcnt := n, reason := reason, activeB := if m.bankValid (!m.activeB) then !m.activeB else m.activeB })

/-- START_FAILURE (R418): a check of a start fails with one of the reasons 0x01 to 0x08 (R419). -/
def execStartFailure (reason : Byte) (s : State) : Res :=
  .next (if 1 ≤ reason.toNat ∧ reason.toNat ≤ 8 then s.startFails reason.toNat else s)
/-- START_WATCHDOG_EXPIRY (R418, R419). -/
def execStartWatchdogExpiry (s : State) : Res := .next (s.startFails 8)

/-! ## Firmware (R415 to R417) -/

/-- Answers a command of the owner's session that is allowed, or refuses it. -/
def State.owned (s : State) (what : Nat) (ok : Bool) (go : State → State) : State :=
  if s.byOwner && ok then (go s).send (.accepted what) else s.send (.refused what 0)

/-- STAGE_BEGIN (R416). -/
def execStageBegin (s : State) : Res :=
  .next (s.owned 0x43 (s.mg.fwstate == 0) (fun s => s.setMg (fun m => { m.setBank (!m.activeB) ⟨false, 0, 0, []⟩ with fwstate := 1 })))

/-- FIRMWARE_DATA_TRANSFER (R416). -/
def execFirmwareDataTransfer (bytes : List Byte) (s : State) : Res :=
  .next (s.owned 0x44 (s.mg.fwstate == 1) (fun s => s.setMg (fun m =>
    let b := m.bank (!m.activeB)
    m.setBank (!m.activeB) { b with bytes := b.bytes ++ bytes })))

/-- STAGE_VERIFY (R415, R416): `sigOk` says whether the signature verifies; a failure answers reason 1 or 2. -/
def execStageVerify (sigOk : Bool) (s : State) : Res :=
  .next (
    let m := s.mg
    if !s.byOwner || m.fwstate != 1 then s.send (.refused 0x45 0)
    else
      let b := m.bank (!m.activeB)
      let svn := (Config.imageSvn b.bytes).toNat
      if sigOk && decide (m.minsvn ≤ svn) && decide ((m.bank m.activeB).svn ≤ svn) then
        (s.setMg (fun m => { m.setBank (!m.activeB) { b with valid := true, ver := Config.imageVer b.bytes, svn := svn } with fwstate := 2 })).send (.accepted 0x45)
      else (s.setMg (fun m => { m with fwstate := 0 })).send (.refused 0x45 (if sigOk then 2 else 1)))

/-- STAGE_ABORT (R416). -/
def execStageAbort (s : State) : Res :=
  .next (s.owned 0x46 (s.mg.fwstate == 1 || s.mg.fwstate == 2) (fun s => s.setMg (fun m =>
    let b := m.bank (!m.activeB)
    { m.setBank (!m.activeB) { b with valid := false } with fwstate := 0 })))

/-- The functions that hold a slice, in order. -/
def State.sliced (s : State) : List Nat := (List.range 65).filter (fun f => (s.slice f).st != 0)

/-- ACTIVATE (R417): every function in RUN is quiesced, and the others are held. The response follows the self-check. -/
def execFwActivate (s : State) : Res :=
  .next (if !s.byOwner || s.mg.fwstate != 2 then s.send (.refused 0x47 0) else
    let run := s.sliced.filter (fun f => (s.func f).ifState == 2 && (s.func f).quiesce.isNone)
    let free := s.sliced.filter (fun f => (s.func f).ifState == 0)
    let s := s.setMg (fun m => { m with fwstate := 3, actHeld := run })
    (run ++ free).foldl (fun s f => s.quiesceBegin f false) s)

/-- Whether every function has come to rest for an activation (R417 step 1): none is in RUN any more, and the work of one in
CONFIG_UNLOCKED is held. -/
def State.allHeld (s : State) : Bool :=
  s.sliced.all (fun f => (s.func f).ifState != 2 && ((s.func f).ifState != 0 || s.quiesceDone f))

/-- The functions an activation holds resume, and INTCAUSE bit 3 of each is raised; one in another state has no work to
resume (R417 step 4). -/
def State.resumeAll (s : State) : State :=
  let rest := s.sliced.filter (fun f => (s.func f).ifState != 0 && !s.mg.actHeld.contains f)
  let s := rest.foldl (fun s f => s.cause f 3) s
  let free := s.sliced.filter (fun f => (s.func f).ifState == 0 && (s.func f).quiesce.isSome)
  let s := free.foldl (fun s f => (s.unhold f).cause f 3) s
  let held := s.mg.actHeld.filter (fun f => (s.func f).ifState == 4)
  let s := held.foldl (fun s f => (s.unhold f).setIf f 2) s
  ((free ++ held ++ rest).foldl (fun s f => s.heldGo f 64) s).setMg (fun m => { m with actHeld := [] })

/-- ACTIVATION_SELF_CHECK (R417, R418), which answers ACTIVATE: the banks swap, or the old one resumes with reason 0x0A; in
recovery mode a success is followed by a cold start. -/
def execActivationSelfCheck (passed : Bool) (s : State) : Res :=
  .next (
    if s.mg.fwstate != 3 || !s.allHeld then s
    else if !passed then ((s.setMg (fun m => { m with fwstate := 0, reason := 0x0A })).resumeAll).send (.refused 0x47 0x0A)
    else
      let was := s.mg.boot
      let s := ((s.setMg (fun m => { m with fwstate := 0, activeB := !m.activeB })).resumeAll).send (.accepted 0x47)
      if was == 2 then (s.setMg (fun m => { m with failcnt := 0 })).coldReset else s)

/-! ## SYNC and telemetry (R420, R421) -/

/-- The highest of the die temperatures. -/
def Mgmt.tmax (m : Mgmt) : Nat := m.temps.foldl (fun t e => max t e.2) 0

/-- The 128 bytes of SYNC (R420). -/
def State.syncBytes (s : State) : List Byte :=
  let m := s.mg
  let act := m.bank m.activeB
  let ina := m.bank (!m.activeB)
  let slices := (List.range 65).foldl (fun v n => if (s.slice n).st != 0 then v + 2 ^ n else v) 0
  let inState (k : Nat) : Nat := ((List.range 65).filter (fun f => (s.func f).ifState == k)).length
  toLE 2 0x5C0E ++ toLE 1 1 ++ toLE 1 m.boot ++ toLE 1 m.reason ++ toLE 1 (m.fwstate * 16 + (if m.activeB then 1 else 0)) ++ toLE 1 m.failcnt ++
  toLE 1 m.stage ++ toLE 4 act.ver.toNat ++ toLE 4 (if m.bankValid (!m.activeB) then ina.ver.toNat else 0) ++ toLE 4 m.syncSeq ++
  toLE 2 (m.rstLevel % 16 * 256 + m.rstResult) ++ toLE 1 (if m.rstBusy then 128 else 0) ++ zeros 1 ++
  (List.range 5).flatMap (fun k => toLE 1 (inState k)) ++ zeros 3 ++ toLE 9 slices ++ zeros 7 ++ toLE 2 m.power ++ toLE 2 m.pwrcap ++
  toLE 1 m.tmax ++ toLE 1 (bankCap m.stage) ++ toLE 2 (s.cores.filter (fun e => e.2.outOfService)).length ++
  toLE 2 (s.chans.filter (fun e => e.2.degraded || e.2.exhausted)).length ++ toLE 4 (s.gran.filter (fun e => e.2.spare)).length ++
  toLE 1 m.hostLink ++ toLE 1 m.sup ++ toLE 1 m.sout ++ zeros 63

/-- SYNC (R410, R420): needs no session; SEQ counts this response too. -/
def execEvonosSync (s : State) : Res :=
  .next (
    let s := s.setMg (fun m => { m with syncSeq := (m.syncSeq + 1) % 2 ^ 32 })
    s.send (.bytes 0x40 s.syncBytes))

/-- TELEMETRY_READ (R410, R421): the last record of a schema. -/
def execTelemetryRead (schema : Nat) (s : State) : Res :=
  .next (if 1 ≤ schema ∧ schema ≤ 5 then s.send (.bytes 0x41 ((tgetD s.mg.records schema []).flatMap (fun w => toLE 8 w.toNat)))
    else s.send (.refused 0x41 schema))

/-- The units whose errors schema 3 counts: cores, stack cores, dies, base dies, comb units (R421). -/
def countedUnits : List Nat := List.range 1280 ++ List.range' 2048 86 ++ List.range' 4096 16 ++ List.range' 8192 16384

/-- Every kind of count of schema 3, in order. -/
def Count.kinds : List Count :=
  [.corrected, .uncorrectable, .poisoned, .poisonCommand, .retirement, .pageLost, .refusedPacket, .refusedMmio, .machineStop]

/-- What schema 4 says of a slice (R421): state, NCH, NCORE, resident workgroups, saved contexts, ready-pool use, RPQ and
the lease cycles it has used. -/
def State.occupancy (s : State) (n : Nat) : List Nat :=
  let mine := s.cxs.filter (fun e => e.2.slice == n)
  [(s.slice n).st, (s.channels n).length, (s.cores_ n).length, (mine.filter (fun e => e.2.resident)).length, (mine.filter (fun e => !e.2.resident)).length,
   (s.nodes.filter (fun e => e.2.slice == n && e.2.st == .pool)).length, (s.slice n).rpq, (s.dies.map (fun d => tgetD d.2.used n 0)).sum]

/-- A record of a schema (R421): what the machine holds, then the quantities measured outside it. -/
def State.telemetry (s : State) (schema : Nat) (measured : List W64) : List W64 :=
  let m := s.mg
  let count (k : Nat) : Nat := tgetD m.counters k 0
  let held : List Nat := match schema with
    | 1 => [m.power, m.pwrcap, m.stage]
    | 2 => (List.range 86).map (fun d => tgetD m.temps d 0) ++ [m.flow / 1000]
    | 3 => (List.range 65).flatMap (fun n => Count.kinds.map (fun k => count (sliceCount n k)) ++ Count.kinds.map (fun k => count (coldCount n k))) ++
        countedUnits.flatMap (fun u => Count.kinds.map (fun k => count (unitCount u k)))
    | 4 => (List.range 65).flatMap s.occupancy
    | _ => [m.hostLink / 16, m.hostLink % 16] ++ (List.range 136).flatMap (fun p => [if p < 128 then (if p < m.sup then 1 else 0) else if p - 128 < m.sout then 1 else 0, count (16384 + p)])
  held.map (BitVec.ofNat 64) ++ measured

/-- TELEMETRY_REFRESH (R421): a new record, with the quantities measured for it. -/
def execTelemetryRefresh (schema : Nat) (record : List W64) (s : State) : Res :=
  .next (if 1 ≤ schema ∧ schema ≤ 5 then s.setMg (fun m => { m with records := tset m.records schema (s.telemetry schema record) }) else s)

/-! ## Power, temperature, cooling (R422 to R427) -/

/-- PWRCAP_WRITE (R410, R422). -/
def execPwrcapWrite (watts : Nat) (s : State) : Res :=
  .next (s.owned 0x42 (decide (1000 ≤ watts) && decide (watts ≤ 5600)) (fun s => s.setMg (fun m => { m with pwrcap := watts })))

/-- Sets the throttle stage; lane clocks above GOVMAX fall at once (R425). -/
def State.setStage (s : State) (n : Nat) : State :=
  { s.setMg (fun m => { m with stage := n }) with
    cores := s.cores.map (fun (e : Nat × Core) => (e.1, { e.2 with clockStep := min e.2.clockStep (govMax n) })) }

/-- THROTTLE_STAGE_RAISE (R422): `average` is the 1 ms average power. -/
def execThrottleStageRaise (average : Nat) (s : State) : Res :=
  .next (
    let s := s.setMg (fun m => { m with power := average })
    if s.mg.pwrcap < average then s.setStage (min 4 (s.mg.stage + 1)) else s)

/-- THROTTLE_STAGE_LOWER (R422, R426, R427). -/
def execThrottleStageLower (average : Nat) (s : State) : Res :=
  .next (
    let s := s.setMg (fun m => { m with power := average })
    if 100 * average < 95 * s.mg.pwrcap then s.setStage (max s.mg.floor (s.mg.stage - 1)) else s)

/-- Whether lanes of a core's slots are idle, and so clock-gated (R61): fewer groups issue than there are slots, or a group
is not whole. -/
def State.idleLanes (s : State) (core : Nat) : Bool :=
  let runs := s.strands.filter (fun e => s.unitOf e.2 == core && e.2.ctx != .D && s.canIssue e.1 e.2)
  decide (runs.length < 4) || runs.any (fun e => e.2.group != BitVec.allOnes 32)

/-- GOVERNOR_STEP (R425): up to GOVMAX while idle lanes free power. -/
def execGovernorStep (core : Nat) (up : Bool) (s : State) : Res :=
  .next (s.setCore core (fun c => { c with
    clockStep := if up then (if decide (c.clockStep < govMax s.mg.stage) && s.idleLanes core then c.clockStep + 1 else c.clockStep) else (if 20 < c.clockStep then c.clockStep - 1 else c.clockStep) }))

/-- Records a die's temperature; STAGE is no longer held at 3 once every die is below 95 °C (R426). -/
def State.setTemp (s : State) (die temp : Nat) : State :=
  s.setMg (fun m => let t := tset m.temps die temp; { m with temps := t, hold3 := m.hold3 && t.any (fun e => decide (95 ≤ e.2)) })

/-- THERMAL_WARNING (R426). -/
def execThermalWarning (die temp : Nat) (s : State) : Res :=
  .next (let s := s.setTemp die temp; if 95 ≤ temp then s.send (.event 95 die) else s)

/-- THERMAL_HOLD (R426). -/
def execThermalHold (die temp : Nat) (s : State) : Res :=
  .next (
    let s := s.setTemp die temp
    if 100 ≤ temp then (s.setMg (fun m => { m with hold3 := true })).setStage (max 3 s.mg.stage) else s)

/-- THERMAL_TRIP (R426): every context stops with MACHINE, and the module is held in reset. -/
def execThermalTrip (die temp : Nat) (s : State) : Res :=
  .next (
    let s := s.setTemp die temp
    if temp < 110 then s else (s.machineStopAll (fun _ => true)).setMg (fun m => { m with tripped := true }))

/-- THERMAL_TRIP_RELEASE (R426): `temps` are the temperatures of dies 0 on, and a die past them has its last one; once
every die is at 85 °C or below a cold start follows. -/
def execThermalTripRelease (temps : List Nat) (s : State) : Res :=
  .next (if s.mg.tripped && !temps.isEmpty && temps.all (fun t => decide (t ≤ 85)) &&
      s.mg.temps.all (fun e => decide (e.1 < temps.length) || decide (e.2 ≤ 85)) then s.coldReset else s)

/-- COOLANT_FLOW_LOW (R427): the flow in mL/min; below 1,500 STAGE is held at 4 until the flow recovers. -/
def execCoolantFlowLow (flow : Nat) (s : State) : Res :=
  .next (
    let s := s.setMg (fun m => { m with flow := flow, hold4 := decide (flow < 1500) })
    if flow < 1500 then s.setStage 4 else s)

end Sys2Proof.Machine
end

