-- ==== Sys2Proof/Machine/Return.lean ====
section
/-! DEFINITION. The return of a class-L instruction's lanes (R65, R67). -/
namespace Sys2Proof.Machine

/-- The results of the lanes `lanes` of a pending class-L instruction land (R65, R67). -/
def State.land (s : State) (i id : Nat) (lanes : Word) (ext : W128) (err : Nat) : State :=
  match s.strand i with
  | none => s
  | some st =>
    match st.pends.find? (fun p => p.id == id) with
    | none => s
    | some p =>
      let s :=
        if p.op == 0xA0 || p.op == 0xA1 then
          (p.caps.filter (fun c => inMask lanes c.lane)).foldl (fun s c => s.landForage i p c) s
        else if p.op == 0x7C || p.op == 0x7D then
          (List.range 16).foldl (fun s c => if inMask lanes (c * 2 ^ p.f.x.toNat) then s.landChain i p c ext err else s) s
        else if p.whole && p.tagU && (isLoad p.op || isAcq p.op) then
          if p.caps.any (fun c => inMask lanes c.lane) then s.landOnce i p ext err else s
        else if p.whole && p.tagU then
          (s.updStrand i (fun st => st.landWrite p p.mask (fun _ =>
            match p.caps with
            | c :: _ => if p.op == 0xB7 then c.data.toNat else (sfuOp p.op (c.data.setWidth 32)).toNat
            | [] => 0))).dropCaps i p.id p.mask
        else
          (p.caps.filter (fun c => inMask lanes c.lane)).foldl (fun s c =>
            match (s.strand i).bind (fun st => st.pends.find? (fun q => q.id == id)) with
            | some q => s.landLane i q c ext err
            | none => s) s
      s.settle i

/-- CLASS_L_RESULT_LAND (R65). -/
def execClassLResultLand (st p : Nat) (lanes : BitVec 32) (ext : W128) (err : Byte) (s : State) : Res :=
  if p = 0 || s.savedAway st then .next s else .next (s.land st p lanes ext err.toNat)

end Sys2Proof.Machine
end

