-- ==== Sys2Proof/Machine/Dispatch.lean ====
section
/-! DEFINITION. One arm per constructor of Instr: the meaning of each row of the opcode table. -/
namespace Sys2Proof.Machine

/-- Runs one instruction or one step of the hardware. -/
def exec (i : Instr) (s : State) : Host.Outcome State Fault Refusal :=
  match i with
  | .mov f => Sys2Proof.Machine.execMov f s
  | .iadd f => Sys2Proof.Machine.execIadd f s
  | .isub f => Sys2Proof.Machine.execIsub f s
  | .imul f => Sys2Proof.Machine.execImul f s
  | .imulhS f => Sys2Proof.Machine.execImulhS f s
  | .imulhU f => Sys2Proof.Machine.execImulhU f s
  | .imad f => Sys2Proof.Machine.execImad f s
  | .iaddI64 f => Sys2Proof.Machine.execIaddI64 f s
  | .isubI64 f => Sys2Proof.Machine.execIsubI64 f s
  | .imulI64 f => Sys2Proof.Machine.execImulI64 f s
  | .bitAnd f => Sys2Proof.Machine.execBitAnd f s
  | .bitOr f => Sys2Proof.Machine.execBitOr f s
  | .bitXor f => Sys2Proof.Machine.execBitXor f s
  | .shl f => Sys2Proof.Machine.execShl f s
  | .shrU f => Sys2Proof.Machine.execShrU f s
  | .shrS f => Sys2Proof.Machine.execShrS f s
  | .iminS f => Sys2Proof.Machine.execIminS f s
  | .imaxS f => Sys2Proof.Machine.execImaxS f s
  | .iminU f => Sys2Proof.Machine.execIminU f s
  | .imaxU f => Sys2Proof.Machine.execImaxU f s
  | .popc f => Sys2Proof.Machine.execPopc f s
  | .clz f => Sys2Proof.Machine.execClz f s
  | .bfx f => Sys2Proof.Machine.execBfx f s
  | .bfi f => Sys2Proof.Machine.execBfi f s
  | .icmp f => Sys2Proof.Machine.execIcmp f s
  | .icmpI64 f => Sys2Proof.Machine.execIcmpI64 f s
  | .isel f => Sys2Proof.Machine.execIsel f s
  | .movi f => Sys2Proof.Machine.execMovi f s
  | .movhi f => Sys2Proof.Machine.execMovhi f s
  | .iaddi f => Sys2Proof.Machine.execIaddi f s
  | .andi f => Sys2Proof.Machine.execAndi f s
  | .ori f => Sys2Proof.Machine.execOri f s
  | .shli f => Sys2Proof.Machine.execShli f s
  | .shriU f => Sys2Proof.Machine.execShriU f s
  | .shriS f => Sys2Proof.Machine.execShriS f s
  | .leaTp f => Sys2Proof.Machine.execLeaTp f s
  | .rdsp f => Sys2Proof.Machine.execRdsp f s
  | .pset f => Sys2Proof.Machine.execPset f s
  | .predv f => Sys2Proof.Machine.execPredv f s
  | .vpred f => Sys2Proof.Machine.execVpred f s
  | .shape f => Sys2Proof.Machine.execShape f s
  | .unify f => Sys2Proof.Machine.execUnify f s
  | .xlaneFrom f => Sys2Proof.Machine.execXlaneFrom f s
  | .xlaneBack f => Sys2Proof.Machine.execXlaneBack f s
  | .xlaneFwd f => Sys2Proof.Machine.execXlaneFwd f s
  | .xlaneFlip f => Sys2Proof.Machine.execXlaneFlip f s
  | .bcast f => Sys2Proof.Machine.execBcast f s
  | .matchKey f => Sys2Proof.Machine.execMatchKey f s
  | .mred f => Sys2Proof.Machine.execMred f s
  | .fadd f => Sys2Proof.Machine.execFadd f s
  | .fsub f => Sys2Proof.Machine.execFsub f s
  | .fmul f => Sys2Proof.Machine.execFmul f s
  | .ffma f => Sys2Proof.Machine.execFfma f s
  | .fopRm f => Sys2Proof.Machine.execFopRm f s
  | .fmin f => Sys2Proof.Machine.execFmin f s
  | .fmax f => Sys2Proof.Machine.execFmax f s
  | .fabs f => Sys2Proof.Machine.execFabs f s
  | .fneg f => Sys2Proof.Machine.execFneg f s
  | .fcmp f => Sys2Proof.Machine.execFcmp f s
  | .frcp f => Sys2Proof.Machine.execFrcp f s
  | .frsq f => Sys2Proof.Machine.execFrsq f s
  | .fsqrt f => Sys2Proof.Machine.execFsqrt f s
  | .fex2 f => Sys2Proof.Machine.execFex2 f s
  | .flg2 f => Sys2Proof.Machine.execFlg2 f s
  | .fsin f => Sys2Proof.Machine.execFsin f s
  | .fcos f => Sys2Proof.Machine.execFcos f s
  | .hop2 f => Sys2Proof.Machine.execHop2 f s
  | .hdot2 f => Sys2Proof.Machine.execHdot2 f s
  | .cvtFI f => Sys2Proof.Machine.execCvtFI f s
  | .cvtIF f => Sys2Proof.Machine.execCvtIF f s
  | .cvtHF f => Sys2Proof.Machine.execCvtHF f s
  | .cvtFH f => Sys2Proof.Machine.execCvtFH f s
  | .cvtQF f => Sys2Proof.Machine.execCvtQF f s
  | .cvtFQ f => Sys2Proof.Machine.execCvtFQ f s
  | .packH2 f => Sys2Proof.Machine.execPackH2 f s
  | .packQ4 f => Sys2Proof.Machine.execPackQ4 f s
  | .zbenc f => Sys2Proof.Machine.execZbenc f s
  | .zbdec f => Sys2Proof.Machine.execZbdec f s
  | .lbind f => Sys2Proof.Machine.execLbind f s
  | .lfree f => Sys2Proof.Machine.execLfree f s
  | .ladd f => Sys2Proof.Machine.execLadd f s
  | .lsub f => Sys2Proof.Machine.execLsub f s
  | .lneg f => Sys2Proof.Machine.execLneg f s
  | .lshl f => Sys2Proof.Machine.execLshl f s
  | .lshrU f => Sys2Proof.Machine.execLshrU f s
  | .lshrS f => Sys2Proof.Machine.execLshrS f s
  | .lrot f => Sys2Proof.Machine.execLrot f s
  | .lmad f => Sys2Proof.Machine.execLmad f s
  | .lspill f => Sys2Proof.Machine.execLspill f s
  | .lcmp f => Sys2Proof.Machine.execLcmp f s
  | .lld f => Sys2Proof.Machine.execLld f s
  | .lst f => Sys2Proof.Machine.execLst f s
  | .lstat f => Sys2Proof.Machine.execLstat f s
  | .ldZ8 f => Sys2Proof.Machine.execLdZ8 f s
  | .ldS8 f => Sys2Proof.Machine.execLdS8 f s
  | .ldZ16 f => Sys2Proof.Machine.execLdZ16 f s
  | .ldS16 f => Sys2Proof.Machine.execLdS16 f s
  | .ldB32 f => Sys2Proof.Machine.execLdB32 f s
  | .ldB64 f => Sys2Proof.Machine.execLdB64 f s
  | .ldB128 f => Sys2Proof.Machine.execLdB128 f s
  | .stB8 f => Sys2Proof.Machine.execStB8 f s
  | .stB16 f => Sys2Proof.Machine.execStB16 f s
  | .stB32 f => Sys2Proof.Machine.execStB32 f s
  | .stB64 f => Sys2Proof.Machine.execStB64 f s
  | .stB128 f => Sys2Proof.Machine.execStB128 f s
  | .ldAcqB32 f => Sys2Proof.Machine.execLdAcqB32 f s
  | .ldAcqB64 f => Sys2Proof.Machine.execLdAcqB64 f s
  | .stRelB32 f => Sys2Proof.Machine.execStRelB32 f s
  | .stRelB64 f => Sys2Proof.Machine.execStRelB64 f s
  | .atomAdd f => Sys2Proof.Machine.execAtomAdd f s
  | .atomMinS f => Sys2Proof.Machine.execAtomMinS f s
  | .atomMaxS f => Sys2Proof.Machine.execAtomMaxS f s
  | .atomAnd f => Sys2Proof.Machine.execAtomAnd f s
  | .atomOr f => Sys2Proof.Machine.execAtomOr f s
  | .atomXor f => Sys2Proof.Machine.execAtomXor f s
  | .atomXchg f => Sys2Proof.Machine.execAtomXchg f s
  | .atomCas f => Sys2Proof.Machine.execAtomCas f s
  | .atomFadd f => Sys2Proof.Machine.execAtomFadd f s
  | .atomBfadd2 f => Sys2Proof.Machine.execAtomBfadd2 f s
  | .redAdd f => Sys2Proof.Machine.execRedAdd f s
  | .redFadd f => Sys2Proof.Machine.execRedFadd f s
  | .cache f => Sys2Proof.Machine.execCache f s
  | .fence f => Sys2Proof.Machine.execFence f s
  | .xfence f => Sys2Proof.Machine.execXfence f s
  | .forage f => Sys2Proof.Machine.execForage f s
  | .forageTry f => Sys2Proof.Machine.execForageTry f s
  | .home f => Sys2Proof.Machine.execHome f s
  | .fstat f => Sys2Proof.Machine.execFstat f s
  | .br f => Sys2Proof.Machine.execBr f s
  | .brL f => Sys2Proof.Machine.execBrL f s
  | .call f => Sys2Proof.Machine.execCall f s
  | .callL f => Sys2Proof.Machine.execCallL f s
  | .callr f => Sys2Proof.Machine.execCallr f s
  | .jr f => Sys2Proof.Machine.execJr f s
  | .ret f => Sys2Proof.Machine.execRet f s
  | .exit f => Sys2Proof.Machine.execExit f s
  | .jset f => Sys2Proof.Machine.execJset f s
  | .jadd f => Sys2Proof.Machine.execJadd f s
  | .join f => Sys2Proof.Machine.execJoin f s
  | .trail f => Sys2Proof.Machine.execTrail f s
  | .waitr f => Sys2Proof.Machine.execWaitr f s
  | .vote f => Sys2Proof.Machine.execVote f s
  | .wqPush f => Sys2Proof.Machine.execWqPush f s
  | .wqPop f => Sys2Proof.Machine.execWqPop f s
  | .brk f => Sys2Proof.Machine.execBrk f s
  | .cpL f => Sys2Proof.Machine.execCpL f s
  | .cpT f => Sys2Proof.Machine.execCpT f s
  | .cpG f => Sys2Proof.Machine.execCpG f s
  | .cpGcm f => Sys2Proof.Machine.execCpGcm f s
  | .cpStat f => Sys2Proof.Machine.execCpStat f s
  | .cpCancel f => Sys2Proof.Machine.execCpCancel f s
  | .barInit f => Sys2Proof.Machine.execBarInit f s
  | .barArrive f => Sys2Proof.Machine.execBarArrive f s
  | .barExpect f => Sys2Proof.Machine.execBarExpect f s
  | .barWait f => Sys2Proof.Machine.execBarWait f s
  | .barTest f => Sys2Proof.Machine.execBarTest f s
  | .barInval f => Sys2Proof.Machine.execBarInval f s
  | .obres f => Sys2Proof.Machine.execObres f s
  | .obrel f => Sys2Proof.Machine.execObrel f s
  | .mma f => Sys2Proof.Machine.execMma f s
  | .mconv f => Sys2Proof.Machine.execMconv f s
  | .mzero f => Sys2Proof.Machine.execMzero f s
  | .mld f => Sys2Proof.Machine.execMld f s
  | .mst f => Sys2Proof.Machine.execMst f s
  | .mwait f => Sys2Proof.Machine.execMwait f s
  | .mstat f => Sys2Proof.Machine.execMstat f s
  | .cmode f => Sys2Proof.Machine.execCmode f s
  | .cbcast f => Sys2Proof.Machine.execCbcast f s
  | .cldRow f => Sys2Proof.Machine.execCldRow f s
  | .cstRow f => Sys2Proof.Machine.execCstRow f s
  | .cmac f => Sys2Proof.Machine.execCmac f s
  | .cdot f => Sys2Proof.Machine.execCdot f s
  | .cred f => Sys2Proof.Machine.execCred f s
  | .cwr f => Sys2Proof.Machine.execCwr f s
  | .clut f => Sys2Proof.Machine.execClut f s
  | .cattn f => Sys2Proof.Machine.execCattn f s
  | .ctblWr f => Sys2Proof.Machine.execCtblWr f s
  | .ctblSwap f => Sys2Proof.Machine.execCtblSwap f s
  | .csync f => Sys2Proof.Machine.execCsync f s
  | .cstat f => Sys2Proof.Machine.execCstat f s
  | .nodeSpawn f => Sys2Proof.Machine.execNodeSpawn f s
  | .grp f => Sys2Proof.Machine.execGrp f s
  | .sysrd f => Sys2Proof.Machine.execSysrd f s
  | .syswr f => Sys2Proof.Machine.execSyswr f s
  | .trapi f => Sys2Proof.Machine.execTrapi f s
  | .rti f => Sys2Proof.Machine.execRti f s
  | .mov16 f => Sys2Proof.Machine.execMov16 f s
  | .iadd16 f => Sys2Proof.Machine.execIadd16 f s
  | .isub16 f => Sys2Proof.Machine.execIsub16 f s
  | .imul16 f => Sys2Proof.Machine.execImul16 f s
  | .bitAnd16 f => Sys2Proof.Machine.execBitAnd16 f s
  | .bitOr16 f => Sys2Proof.Machine.execBitOr16 f s
  | .bitXor16 f => Sys2Proof.Machine.execBitXor16 f s
  | .shl16 f => Sys2Proof.Machine.execShl16 f s
  | .shrU16 f => Sys2Proof.Machine.execShrU16 f s
  | .shrS16 f => Sys2Proof.Machine.execShrS16 f s
  | .iminS16 f => Sys2Proof.Machine.execIminS16 f s
  | .imaxS16 f => Sys2Proof.Machine.execImaxS16 f s
  | .fadd16 f => Sys2Proof.Machine.execFadd16 f s
  | .fsub16 f => Sys2Proof.Machine.execFsub16 f s
  | .fmul16 f => Sys2Proof.Machine.execFmul16 f s
  | .fmax16 f => Sys2Proof.Machine.execFmax16 f s
  | .unassignedOpcode w => Sys2Proof.Machine.execUnassignedOpcode w s
  | .classLResultLand st p lanes ext err => Sys2Proof.Machine.execClassLResultLand st p lanes ext err s
  | .issueStarvation st => Sys2Proof.Machine.execIssueStarvation st s
  | .faultDelivery st => Sys2Proof.Machine.execFaultDelivery st s
  | .faultQueueWrite f => Sys2Proof.Machine.execFaultQueueWrite f s
  | .generalBlockGrant core => Sys2Proof.Machine.execGeneralBlockGrant core s
  | .sfuQueueAdmit core => Sys2Proof.Machine.execSfuQueueAdmit core s
  | .missBufferGrant core => Sys2Proof.Machine.execMissBufferGrant core s
  | .engineQueueRoom die => Sys2Proof.Machine.execEngineQueueRoom die s
  | .homeRecordGrant cx => Sys2Proof.Machine.execHomeRecordGrant cx s
  | .engineHolderFree core => Sys2Proof.Machine.execEngineHolderFree core s
  | .matrixQueueRoom core => Sys2Proof.Machine.execMatrixQueueRoom core s
  | .combBufferRoom chan => Sys2Proof.Machine.execCombBufferRoom chan s
  | .waggleEntryFree core => Sys2Proof.Machine.execWaggleEntryFree core s
  | .fenceWaitEnd st => Sys2Proof.Machine.execFenceWaitEnd st s
  | .applyAtHome w err => Sys2Proof.Machine.execApplyAtHome w err s
  | .viewUpdate w p die => Sys2Proof.Machine.execViewUpdate w p die s
  | .pageWalk die f => Sys2Proof.Machine.execPageWalk die f s
  | .engineLeaseGrant die eng => Sys2Proof.Machine.execEngineLeaseGrant die eng s
  | .leaseExpiry die eng => Sys2Proof.Machine.execLeaseExpiry die eng s
  | .beatLand die eng => Sys2Proof.Machine.execBeatLand die eng s
  | .gcmCounterCheck die eng => Sys2Proof.Machine.execGcmCounterCheck die eng s
  | .gcmTagVerify die eng => Sys2Proof.Machine.execGcmTagVerify die eng s
  | .continuationArrival fg => Sys2Proof.Machine.execContinuationArrival fg s
  | .arrivalQueueAccept u => Sys2Proof.Machine.execArrivalQueueAccept u s
  | .homeReturn fg => Sys2Proof.Machine.execHomeReturn fg s
  | .matrixStep core => Sys2Proof.Machine.execMatrixStep core s
  | .matrixCommandEnd core => Sys2Proof.Machine.execMatrixCommandEnd core s
  | .combInstanceStart node idx => Sys2Proof.Machine.execCombInstanceStart node idx s
  | .combWaveStart chan => Sys2Proof.Machine.execCombWaveStart chan s
  | .submissionRingRead f => Sys2Proof.Machine.execSubmissionRingRead f s
  | .walkerIntakeDrain f => Sys2Proof.Machine.execWalkerIntakeDrain f s
  | .dispatchNode die => Sys2Proof.Machine.execDispatchNode die s
  | .workgroupAdmission node core base => Sys2Proof.Machine.execWorkgroupAdmission node core base s
  | .workgroupStart cx => Sys2Proof.Machine.execWorkgroupStart cx s
  | .workgroupComplete cx => Sys2Proof.Machine.execWorkgroupComplete cx s
  | .nodeComplete node => Sys2Proof.Machine.execNodeComplete node s
  | .preempttoExpiry cx => Sys2Proof.Machine.execPreempttoExpiry cx s
  | .saveAreaWrite cx => Sys2Proof.Machine.execSaveAreaWrite cx s
  | .contextRestore cx core base => Sys2Proof.Machine.execContextRestore cx core base s
  | .combInstanceRestore inst => Sys2Proof.Machine.execCombInstanceRestore inst s
  | .fqackRetry f idx => Sys2Proof.Machine.execFqackRetry f idx s
  | .fqackSkip f idx => Sys2Proof.Machine.execFqackSkip f idx s
  | .fqackKill f idx => Sys2Proof.Machine.execFqackKill f idx s
  | .tlbinvPage f va => Sys2Proof.Machine.execTlbinvPage f va s
  | .tlbinvFunction f => Sys2Proof.Machine.execTlbinvFunction f s
  | .tlbinvWalkerCache f => Sys2Proof.Machine.execTlbinvWalkerCache f s
  | .attrReset f val => Sys2Proof.Machine.execAttrReset f val s
  | .sysregWrite f num val => Sys2Proof.Machine.execSysregWrite f num val s
  | .usedHalving die => Sys2Proof.Machine.execUsedHalving die s
  | .banklimWrite f stack val => Sys2Proof.Machine.execBanklimWrite f stack val s
  | .doorbell f val tbit => Sys2Proof.Machine.execDoorbell f val tbit s
  | .dispHalving => Sys2Proof.Machine.execDispHalving s
  | .gangWaitExpiry node => Sys2Proof.Machine.execGangWaitExpiry node s
  | .gangPreExpiry node => Sys2Proof.Machine.execGangPreExpiry node s
  | .gangUnplaceable node => Sys2Proof.Machine.execGangUnplaceable node s
  | .launchPacket f entry sender seq arg => Sys2Proof.Machine.execLaunchPacket f entry sender seq arg s
  | .sliceCreate => Sys2Proof.Machine.execSliceCreate s
  | .addch => Sys2Proof.Machine.execAddch s
  | .addcore => Sys2Proof.Machine.execAddcore s
  | .remch => Sys2Proof.Machine.execRemch s
  | .remcore => Sys2Proof.Machine.execRemcore s
  | .movech => Sys2Proof.Machine.execMovech s
  | .setparam => Sys2Proof.Machine.execSetparam s
  | .sliceDestroy => Sys2Proof.Machine.execSliceDestroy s
  | .sliceCommandEnd => Sys2Proof.Machine.execSliceCommandEnd s
  | .epochSweep chan => Sys2Proof.Machine.execEpochSweep chan s
  | .granuleRetire gran => Sys2Proof.Machine.execGranuleRetire gran s
  | .coreUncorrectableError core passed => Sys2Proof.Machine.execCoreUncorrectableError core passed s
  | .linkFailure link => Sys2Proof.Machine.execLinkFailure link s
  | .mmioWrite f off val tbit => Sys2Proof.Machine.execMmioWrite f off val tbit s
  | .mmioRead f off tbit => Sys2Proof.Machine.execMmioRead f off tbit s
  | .intcauseClear f val tbit => Sys2Proof.Machine.execIntcauseClear f val tbit s
  | .atsTranslationCompletion die f iova res => Sys2Proof.Machine.execAtsTranslationCompletion die f iova res s
  | .priPageResponse die f iova ok => Sys2Proof.Machine.execPriPageResponse die f iova ok s
  | .priTimeout die f iova => Sys2Proof.Machine.execPriTimeout die f iova s
  | .atsInvalidateRequest f iova pages => Sys2Proof.Machine.execAtsInvalidateRequest f iova pages s
  | .atsInvalidateCompletion tag => Sys2Proof.Machine.execAtsInvalidateCompletion tag s
  | .lockInterfaceRequest f => Sys2Proof.Machine.execLockInterfaceRequest f s
  | .startInterfaceRequest f => Sys2Proof.Machine.execStartInterfaceRequest f s
  | .stopInterfaceRequest f => Sys2Proof.Machine.execStopInterfaceRequest f s
  | .ideKm f key => Sys2Proof.Machine.execIdeKm f key s
  | .ideIntegrityFailure f => Sys2Proof.Machine.execIdeIntegrityFailure f s
  | .pfFunctionConfigChange f => Sys2Proof.Machine.execPfFunctionConfigChange f s
  | .getCreni f nonce => Sys2Proof.Machine.execGetCreni f nonce s
  | .streamSet f n key sid last => Sys2Proof.Machine.execStreamSet f n key sid last s
  | .streamClr f n => Sys2Proof.Machine.execStreamClr f n s
  | .quiesceFunction f save => Sys2Proof.Machine.execQuiesceFunction f save s
  | .quiesceComplete f => Sys2Proof.Machine.execQuiesceComplete f s
  | .resumeFunction f => Sys2Proof.Machine.execResumeFunction f s
  | .migkey f key peer => Sys2Proof.Machine.execMigkey f key peer s
  | .dirtyRead f first count => Sys2Proof.Machine.execDirtyRead f first count s
  | .exportPage f gran buf => Sys2Proof.Machine.execExportPage f gran buf s
  | .exportState f => Sys2Proof.Machine.execExportState f s
  | .importPage f buf counter => Sys2Proof.Machine.execImportPage f buf counter s
  | .importState f image => Sys2Proof.Machine.execImportState f image s
  | .peerRequest dev pfunc sfunc off op => Sys2Proof.Machine.execPeerRequest dev pfunc sfunc off op s
  | .vcHold port vc => Sys2Proof.Machine.execVcHold port vc s
  | .vcRelease port vc => Sys2Proof.Machine.execVcRelease port vc s
  | .bufferReservationGrant port => Sys2Proof.Machine.execBufferReservationGrant port s
  | .linkRetry port => Sys2Proof.Machine.execLinkRetry port s
  | .collectiveAck node rank => Sys2Proof.Machine.execCollectiveAck node rank s
  | .powerUp => Sys2Proof.Machine.execPowerUp s
  | .perst => Sys2Proof.Machine.execPerst s
  | .pcieHotReset => Sys2Proof.Machine.execPcieHotReset s
  | .functionLevelReset f => Sys2Proof.Machine.execFunctionLevelReset f s
  | .resetEngineCopy target => Sys2Proof.Machine.execResetEngineCopy target s
  | .resetEngineGather target => Sys2Proof.Machine.execResetEngineGather target s
  | .resetEngineMatrix target => Sys2Proof.Machine.execResetEngineMatrix target s
  | .resetEngineComb target => Sys2Proof.Machine.execResetEngineComb target s
  | .resetEngineLead target => Sys2Proof.Machine.execResetEngineLead target s
  | .resetEngineCollective target => Sys2Proof.Machine.execResetEngineCollective target s
  | .resetCore target passed => Sys2Proof.Machine.execResetCore target passed s
  | .resetStack target => Sys2Proof.Machine.execResetStack target s
  | .resetDie target => Sys2Proof.Machine.execResetDie target s
  | .resetFunction target => Sys2Proof.Machine.execResetFunction target s
  | .resetSlice target => Sys2Proof.Machine.execResetSlice target s
  | .resetModuleWarm => Sys2Proof.Machine.execResetModuleWarm s
  | .moduleColdReset => Sys2Proof.Machine.execModuleColdReset s
  | .resetComplete => Sys2Proof.Machine.execResetComplete s
  | .startReady => Sys2Proof.Machine.execStartReady s
  | .startFailure reason => Sys2Proof.Machine.execStartFailure reason s
  | .startWatchdogExpiry => Sys2Proof.Machine.execStartWatchdogExpiry s
  | .stageBegin => Sys2Proof.Machine.execStageBegin s
  | .firmwareDataTransfer bytes => Sys2Proof.Machine.execFirmwareDataTransfer bytes s
  | .stageVerify sigOk => Sys2Proof.Machine.execStageVerify sigOk s
  | .fwActivate => Sys2Proof.Machine.execFwActivate s
  | .activationSelfCheck passed => Sys2Proof.Machine.execActivationSelfCheck passed s
  | .stageAbort => Sys2Proof.Machine.execStageAbort s
  | .evonosSync => Sys2Proof.Machine.execEvonosSync s
  | .telemetryRead schema => Sys2Proof.Machine.execTelemetryRead schema s
  | .telemetryRefresh schema record => Sys2Proof.Machine.execTelemetryRefresh schema record s
  | .pwrcapWrite watts => Sys2Proof.Machine.execPwrcapWrite watts s
  | .throttleStageRaise average => Sys2Proof.Machine.execThrottleStageRaise average s
  | .throttleStageLower average => Sys2Proof.Machine.execThrottleStageLower average s
  | .governorStep core up => Sys2Proof.Machine.execGovernorStep core up s
  | .thermalWarning die temp => Sys2Proof.Machine.execThermalWarning die temp s
  | .thermalHold die temp => Sys2Proof.Machine.execThermalHold die temp s
  | .thermalTrip die temp => Sys2Proof.Machine.execThermalTrip die temp s
  | .thermalTripRelease temps => Sys2Proof.Machine.execThermalTripRelease temps s
  | .coolantFlowLow flow => Sys2Proof.Machine.execCoolantFlowLow flow s
  | .completionTimeout die f iova eng => Sys2Proof.Machine.execCompletionTimeout die f iova eng s
  | .keyExchange f owner transcript => Sys2Proof.Machine.execKeyExchange f owner transcript s
  | .collectiveContributionArrival node rank data => Sys2Proof.Machine.execCollectiveContributionArrival node rank data s
  | .dieTlbUncorrectableError die => Sys2Proof.Machine.execDieTlbUncorrectableError die s
  | .l2LineUncorrectableError die f line => Sys2Proof.Machine.execL2LineUncorrectableError die f line s
  | .hubDieError => Sys2Proof.Machine.execHubDieError s

end Sys2Proof.Machine
end

