-- ==== Sys2Proof/Machine/Place.lean ====
section
/-! DEFINITION. What comes from outside the machine between its steps, and how an instruction is placed
where the next step fetches it (notes/assumptions/2.md, 5.md). -/
namespace Sys2Proof.Machine

/-- Marks a sector poisoned (R198). -/
def State.poisonSector (s : State) (p : Nat) : State := if s.poison.contains p then s else { s with poison := p :: s.poison }

/-- Counts an uncorrectable error at a place of device DRAM or SRAM (R380). -/
def State.countAt (s : State) (l : Nat) (k : Count) : State :=
  if isDram l then s.countError (s.chanSlice (chanOf l)) (4096 + chanOf l / 64) k
  else s.countError (s.coreSlice ((l - 2 ^ 40) / 2 ^ 22)) ((l - 2 ^ 40) / 2 ^ 22) k

/-- Counts an error of a comb unit (R380). -/
def State.countBank (s : State) (c b : Nat) : State := s.countError (s.chanSlice c) (8192 + 16 * c + b)

/-- An item of the environment that is no step of the opcode table: time passing, the host writing its own
memory, and errors of the storage (R198, R342, R347, R379 to R381). -/
def State.outside (s : State) (it : Item) : State :=
  match it with
  | .ev _ | .run _ | .tick => s
  | .hostWrite a bs => s.homeWrite (hostLoc a) bs
  | .corrupt p => ((s.poisonSector p).countAt (32 * p) .uncorrectable).countAt (32 * p) .poisoned
  | .retire g => s.setGran g (fun x => { x with held := true })
  | .parity c b n => (s.setBank c b (fun x => { x with buf := x.buf.modify n (fun e => { e with parity := true }) })).countBank c b
  | .badResult c b => (s.setBank c b (fun x => { x with buf := x.buf.modify 0 (fun e => { e with bad := true }) })).countBank c b
  | .residue c b l => (s.setBank c b (fun x => { x with faulted := x.faulted ||| (1#64 <<< l) })).countBank c b
  | .corrected n u => s.countError n u .corrected
  | .via n => s.setMg (fun m => { m with via := n })
  | .links h u o => s.setMg (fun m => { m with hostLink := h % 256, sup := min u 128, sout := min o 8 })
  | .tdispReport f => if s.session f then s.send (.bytes 0x84 (s.tdispReport f)) else s.send (.refused 0x84 f)
  | .certificate n => if n = 0 then s.send (.bytes 0x85 Config.certChain) else s.send (.refused 0x85 n)

/-! ## Placing one instruction -/

/-- The first context an opcode may run in, of L, D, S and F (R37). -/
def firstCtx (mask : Nat) : Ctx := if bit mask 0 then .L else if bit mask 1 then .D else if bit mask 2 then .S else .F

/-- The context for a word: L for a 16-bit instruction. -/
def ctxOfWord (w : Nat) : Ctx :=
  if bit w 0 then (match opRow (w / 4 % 256) with | some r => firstCtx r.ctx | none => .L) else .L

/-- The header of the context an instruction is placed in. -/
def placeHeader (c : Ctx) : Header :=
  { lead := c == .D, limbs := true, comb := c == .S, laneEnt := 128, codeSize := 4, sram := 4194304, wgSize := 32
    vregs := 56, barriers := if c == .S then 0 else 16, forage := 1 }

/-- A state in which the next step fetches and runs the instruction whose words are `w`: a context with one
strand that may run it, its code mapped at 0x10000, the page table at 0x200000 and its leaf in the core's TLB. -/
def State.placeWord (s : State) (nbits w : Nat) : State :=
  let w := w % 2 ^ nbits
  let c := ctxOfWord w
  let pc : Va := 0x10080
  let lanes := if c == .L then 32 else 1
  let st := { Strand.at c 1 pc lanes with run := some ⟨maskOf (fun k => decide (k < lanes)), 0, 0, []⟩ }
  let core := if c == .S then 1024 else 0
  let inst : Inst := ⟨1, 1, 0, true, 0, 0, false, 0, 0, 0, [], [], 0⟩
  let home := Strand.at .L 1 pc 32
  let hot : Core := { Core.reset with tlb := [{ fn := 0, base := 0, size := 2 ^ 30, leaf := 0x3FB }] }
  let fg : Forager := { home := 2, lane := 0, first := 0, count := 1, hop := 1, unit := some 0, slot := none, queued := false, dest := none, recalled := false, written := BitVec.allOnes 56 }
  let strands := if c == .F then
      [(1, { st with fg := some fg }), (2, home.setLane 0 (fun l => { l with st := .away }))] else [(1, st)]
  { s with
    mem := mwrite (mwrite s.mem 0x200000 (toLE 8 0x3FB)) 0x10080 (toLE 4 w)
    strands := strands
    cxs := [(1, Cx.at (placeHeader c) 0x10000 core (strands.map (·.1)) (if c == .D then some 1 else none))]
    insts := if c == .S then [(1, inst)] else []
    funcs := tset s.funcs 0 { (s.func 0).setReg 0 0x200001 with ifState := 0, quiesce := none }
    mg := { s.mg with chanOwner := tdel s.mg.chanOwner 0, coreOwner := tdel s.mg.coreOwner 0, tripped := false, rstRun := none, rstPend := none }
    inflight := []
    applied := []
    poison := s.poison.filter (fun p => p / 2048 != 1 && p / 2048 != 32)
    l2bad := []
    gran := tdel (tdel s.gran 1) 32
    dies := tdel (tdel s.dies 0) 64
    cores := tset (tset s.cores 0 hot) 1024 hot
    turn := 0
    cur := 1
    nextId := max s.nextId 3
    agenda := [] }

end Sys2Proof.Machine
end

