-- ==== Sys2Proof/Machine/Run.lean ====
section
/-! DEFINITION. Running a strand, an item of the agenda, or what comes next of itself. -/
namespace Sys2Proof.Machine

/-- Fetches and runs the next instruction of strand i. -/
def State.runStrand (s : State) (i : Nat) : Host.Outcome State Fault Refusal :=
  match s.strand i with
  | none => .next s
  | some st =>
    if !s.canIssue i st then .next s else
    let k := lowest st.group
    let s := { s.formGroup i with cur := i }
    match s.fetch i st k (st.lane k).pc with
    | (s, .bytes bs) =>
      match decodeBytes bs with
      | .ok (ins, _) => exec ins s
      | .error _ => .next (s.illWord (leNat bs))
    | (s, .fault x) => .next (s.fetchFault i x)
    | (s, .wait) => .next (s.setStall i .fetch)
    | (s, .full) => .next (s.setStall i .miss)

/-- Runs the item the environment has put first. -/
def State.runItem (s : State) (it : Item) : Host.Outcome State Fault Refusal :=
  match it with
  | .ev i => exec i s
  | .run i => if (s.strand i).any (fun st => (s.portPick (s.portOf st)).any (fun e => e.1 == i)) then (s.takeTurn i).runStrand i else .next s
  | it => .next (s.outside it)

/-- A step of the hardware: the next one of the round, which takes each of the candidates in turn. -/
def State.runHardware (s : State) : Host.Outcome State Fault Refusal :=
  match s.sweep with
  | i :: is => exec i { s with sweep := is }
  | [] =>
    match s.candidates with
    | i :: is => exec i { s with sweep := is }
    | [] => .next s

/-- With nothing asked for: the next strand to issue and the hardware, in turn. -/
def State.runIdle (s : State) : Host.Outcome State Fault Refusal :=
  let t := { s with turn := s.turn + 1 }
  match (if s.turn % 2 == 0 then t.nextStrand else none) with
  | some i => (t.takeTurn i).runStrand i
  | none => t.runHardware

end Sys2Proof.Machine
end

