-- ==== Sys2Proof/Machine/Step.lean ====
section
/-! DEFINITION. One step: the next item of the agenda, or with an empty agenda the next instruction of a strand or a
step of the hardware, in turn (notes/assumptions/2.md). -/
namespace Sys2Proof.Machine

/-- One step of the machine. -/
def step (s : State) : Host.Outcome State Fault Refusal :=
  match s.agenda with
  | it :: rest => { s.tick with agenda := rest }.runItem it
  | [] => s.tick.runIdle

/-- A state whose next step fetches and runs the instruction with the low `nbits` bits of `w`
(notes/assumptions/5.md). -/
def State.withFetchWord (s : State) (nbits w : Nat) : State := s.placeWord nbits w

end Sys2Proof.Machine
end

