-- ==== Sys2Proof/Safety.lean ====
section
/-! DEFINITION. The terms claims are stated in: what a safe run is, when an instruction of the current strand
reaches its effect, and what an instruction that only writes a register or a predicate leaves. -/
namespace Sys2Proof.Machine

/-! ## Safe runs -/

/-- The step answers a next state: neither a fault nor a refusal. -/
def Runs (s : State) : Prop := ∃ t, step s = .next t

/-- The part of the state every step keeps: the memory holds its canonical form. -/
def State.wf (s : State) : Prop := Memory.wf s.mem = true

/-- Two states whose memory, and whose writes not yet in it, are the same. -/
def State.SameMemory (s t : State) : Prop :=
  (∀ a, mget t.mem a = mget s.mem a) ∧ t.inflight = s.inflight ∧ t.applied = s.applied

/-! ## Issue -/

/-- The issue form of the word of a three-register instruction with opcode `op`. -/
def rrr (op : Nat) (f : Rrr) : Hd := hdOf op (rrrWord op f)
/-- The issue form of a word with a 10-bit immediate. -/
def rri (op : Nat) (f : Rri) : Hd := hdOf op (rriWord op f)
/-- The issue form of a word with a 16-bit immediate. -/
def ri16 (op : Nat) (f : Ri16) : Hd := hdOf op (ri16Word op f)
/-- The issue form of a branch word. -/
def brw (op : Nat) (f : Br) : Hd := hdOf op (brWord op f)
/-- The issue form of a long-branch word. -/
def brlw (op : Nat) (f : Brl) : Hd := hdOf op (brlWord op f)

/-- What an instruction of the current strand performs with: its group, the lanes of it whose guard is true,
its address and its fields. -/
def State.iss (s : State) (st : Strand) (h : Hd) : Iss :=
  ⟨s.cur, st, st.group, if h.row.guarded then st.guarded st.group h.f.x else st.group, (st.lane (lowest st.group)).pc, h⟩

/-- The state after an instruction of the current strand has performed with result `o`: the addresses, the
window, the run count and, where the run ends, its end. -/
def State.after (s : State) (st : Strand) (h : Hd) (o : Out) : State := (State.finish o (s.iss st h)).close s.cur

/-- A strand of the width its context has: 32 lanes or one thread, 56 registers of each kind, and a group of
lanes that can issue. -/
structure Strand.Shaped (st : Strand) : Prop where
  lanes : st.lanes.length = if st.ctx = .L then 32 else 1
  vregs : st.vregs.length = 56
  sregs : st.sregs.length = 56
  group : ∀ k < 32, inMask st.group k = true → (st.lane k).st = .ready ∧ (st.lane k).act = none

/-- Shared general blocks enough for any write of one warp, and no warp of the core that has waited longer for one
(R100, R102). -/
def State.Room (s : State) (st : Strand) : Prop :=
  st.ctx ≠ .L ∨ (s.strands.Pairwise (fun a b => a.1 < b.1) ∧ s.poolUse (s.homeUnit st) + 56 ≤ 4096 ∧
    s.queuesBehind s.cur .block (fun t => s.homeUnit t == s.homeUnit st) = false)

/-- The current strand is `st`, and the instruction `h` reaches its effect there: the strand may issue (R60,
R62, R67), no decode check fails (R40), its run has room for it (R64), its window names are there (R66), no
deferred entry covers its registers (R68), and a forager's registers are readable (R263). -/
structure State.Ready (s : State) (st : Strand) (h : Hd) : Prop where
  cur : s.strand s.cur = some st
  shaped : st.Shaped
  issues : s.canIssue s.cur st = true
  decodes : s.decodeTrap st h = none
  run : (h.row.long && st.runLong == 8) = false
  window : (h.row.winReads h.f).all (fun n => decide (n ≤ st.runLen)) = true
  deferred : st.pends.all (fun p => !(p.trailed && p.covers (h.row.regs st.ctx.wide h.f ++ h.more))) = true
  readable : (st.fg.all (fun g => (s.iss st h).g == 0 || (h.row.reads st.ctx.wide h.f).all (fun r => g.reads r))) = true
  room : s.Room st

/-- Instruction `i`, of issue form `h`, completes in the current strand with result `o`. -/
def State.Does (s : State) (st : Strand) (i : Instr) (h : Hd) (o : Out) : Prop := exec i s = .next (s.after st h o)

/-! ## Register and predicate results -/

/-- Only register `d` of the strand is written, with `v k` in each lane k of `m` (R94, R97): a write by no lane
changes nothing; a write by fewer than all live lanes that are present leaves every other lane's value. In a
scalar context the value of its one thread is written zero-extended to 64 bits (R25). -/
def Strand.Wrote32 (st st' : Strand) (m : Word) (d : Nat) (v : Nat → Word) : Prop :=
  st' = { st with vregs := st'.vregs, sregs := st'.sregs, fg := st'.fg } ∧
  (m = 0 → st' = st) ∧
  match st.ctx with
  | .L =>
    st'.sregs = st.sregs ∧ st'.fg = st.fg ∧ (∀ n, n ≠ d → st'.vreg n = st.vreg n) ∧
    (∀ k < 32, inMask m k = true → st'.reg32 k d = v k) ∧
    (m ≠ st.wholeMask → ∀ k < 32, inMask m k = false → st'.reg32 k d = st.reg32 k d) ∧
    (m ≠ 0 → m ≠ st.wholeMask → (st'.vreg d).tag = 2)
  | _ =>
    st'.vregs = st.vregs ∧ (∀ n, n ≠ d → st'.sreg n = st.sreg n) ∧
    (m ≠ 0 → st'.sreg d = (v 0).setWidth 64 ∧
      st'.fg = st.fg.map (fun g => { g with written := g.written ||| (1#56 <<< d) }))

/-- Only the pair `d` is written (R24, R25): in lane and forager code registers d and d+1, the low half in d;
in lead and stack-core code register d. -/
def Strand.Wrote64 (st st' : Strand) (m : Word) (d : Nat) (v : Nat → W64) : Prop :=
  st' = { st with vregs := st'.vregs, sregs := st'.sregs, fg := st'.fg } ∧
  (m = 0 → st' = st) ∧
  (if st.ctx.wide then
    st'.vregs = st.vregs ∧ st'.fg = st.fg ∧ (∀ n, n ≠ d → st'.sreg n = st.sreg n) ∧ (m ≠ 0 → st'.sreg d = v 0)
   else ∃ mid, st.Wrote32 mid m d (fun k => (v k).setWidth 32) ∧
     mid.Wrote32 st' m (d + 1) (fun k => (v k >>> (32 : Nat)).setWidth 32))

/-- Only predicate `q` of the lanes in `m` is written. -/
def Strand.WrotePred (st st' : Strand) (m : Word) (q : Nat) (v : Nat → Bool) : Prop :=
  st' = { st with lanes := st'.lanes } ∧ st'.lanes.length = st.lanes.length ∧
  ∀ k, st'.lane k = { st.lane k with preds := (st'.lane k).preds } ∧
    ∀ j < 7, st'.pred k j = if inMask m k = true ∧ k < st.lanes.length ∧ j = q then v k else st.pred k j

/-- Instruction `i` writes `v k` to register `d` in each lane whose guard is true, and nothing else but its
thread's addresses, window and run count. -/
def State.Gives32 (s : State) (st : Strand) (i : Instr) (h : Hd) (d : Nat) (v : Nat → Word) : Prop :=
  s.Ready st h → ∃ st', s.Does st i h ⟨s.putStrand s.cur st', .reg d, [], false⟩ ∧ st.Wrote32 st' (s.iss st h).g d v

/-- Instruction `i` writes the 64-bit `v k` to the pair `d` in each lane whose guard is true. -/
def State.Gives64 (s : State) (st : Strand) (i : Instr) (h : Hd) (d : Nat) (v : Nat → W64) : Prop :=
  s.Ready st h → ∃ st', s.Does st i h ⟨s.putStrand s.cur st', .reg d, [], false⟩ ∧ st.Wrote64 st' (s.iss st h).g d v

/-- A whole write of lane code leaves register `d` tagged `t` (R94, R95): 0 U, 1 A, 2 G. -/
def Strand.Tagged (st st' : Strand) (m : Word) (d t : Nat) : Prop :=
  st.ctx = .L → m ≠ 0 → m = st.wholeMask → (st'.vreg d).tag = t

/-- Instruction `i` writes `v k` to register `d` in each lane whose guard is true, and a whole write leaves it tagged `t`. -/
def State.Leaves32 (s : State) (st : Strand) (i : Instr) (h : Hd) (d : Nat) (v : Nat → Word) (t : Nat) : Prop :=
  s.Ready st h → ∃ st', s.Does st i h ⟨s.putStrand s.cur st', .reg d, [], false⟩ ∧ st.Wrote32 st' (s.iss st h).g d v ∧
    st.Tagged st' (s.iss st h).g d t

/-- Instruction `i` writes the 64-bit `v k` to the pair `d`, and a whole write leaves both registers tagged `t`. -/
def State.Leaves64 (s : State) (st : Strand) (i : Instr) (h : Hd) (d : Nat) (v : Nat → W64) (t : Nat) : Prop :=
  s.Ready st h → ∃ st', s.Does st i h ⟨s.putStrand s.cur st', .reg d, [], false⟩ ∧ st.Wrote64 st' (s.iss st h).g d v ∧
    st.Tagged st' (s.iss st h).g d t ∧ st.Tagged st' (s.iss st h).g (d + 1) t

/-- Instruction `i` writes `v k` to predicate `q` in every lane of the group. -/
def State.GivesPred (s : State) (st : Strand) (i : Instr) (h : Hd) (q : Nat) (v : Nat → Bool) : Prop :=
  s.Ready st h → ∃ st', s.Does st i h ⟨s.putStrand s.cur st', .nothing, [], false⟩ ∧ st.WrotePred st' st.group q v

/-! ## Class-L instructions -/

/-- Instruction `i` issues as a class-L instruction (R65): in state `base`, which is `s` but for what the issue takes,
it records one pending instruction with what each lane captured and the registers it will write, and a lane that
captures nothing waits for nothing. `tagU` says that a whole write will leave its registers U (R101). `ords` is what an
access of memory captures of its threads' order; the writes it makes enter their histories (R213). -/
def State.Issues (s base : State) (st : Strand) (i : Instr) (h : Hd) (caps : List Cap) (cnt : Nat) (ends tagU : Bool)
    (ords : List PendOrd := []) : Prop :=
  if caps = [] then s.Does st i h ⟨base, if cnt = 0 then .nothing else .reg h.f.d.toNat, [], ends⟩
  else ∃ p : Pend, p.id = base.nextId ∧ p.op = h.row.op ∧ p.f = h.f ∧ p.pc = (s.iss st h).pc ∧ p.caps = caps ∧
    p.mask = maskOf (fun k => caps.any (·.lane = k)) ∧ p.dst = h.f.d.toNat ∧ p.cnt = cnt ∧
    p.whole = decide (p.mask = st.wholeMask) ∧ p.tagU = tagU ∧ p.trailed = false ∧ p.flts = [] ∧ p.seq = p.id ∧ p.ords = ords ∧
    s.Does st i h ⟨
      (let t := { base with nextId := base.nextId + 1 + 2 * ords.length }.updStrand s.cur (fun t => { t with pends := t.pends ++ [p] })
       if ords = [] then t else t.issued s.cur p.id),
      if cnt = 0 then .nothing else .pend h.f.d.toNat p.id, [], ends⟩

/-- Pending instruction `p` of strand `i`, which may land. -/
structure State.Pending (s : State) (i : Nat) (st : Strand) (p : Pend) : Prop where
  strand : s.strand i = some st
  here : s.savedAway i = false
  found : st.pends.find? (fun q => q.id == p.id) = some p
  id : p.id ≠ 0

/-- Lane `c` of `p` has returned in `st'`: nothing waits for it any more. -/
def Strand.Returned (st' : Strand) (p : Pend) (c : Cap) : Prop :=
  ∀ q ∈ st'.pends, q.id = p.id → ∀ d ∈ q.caps, d.lane ≠ c.lane

end Sys2Proof.Machine
end

