-- ==== Sys2Proof/Certificates/Slice0/Obligations.lean ====
section
/-! DEFINITION. The statements for the provers: what the numbered rules of the spec say each instruction and each
step of the machine does. -/
open Sys2Proof Sys2Proof.Machine

namespace Sys2Proof.Claims

/-! ## Integer arithmetic in the spec's own terms (R106, R108) -/

/-- Bits [63:32] of a 64-bit product. -/
def high (p : W64) : Word := p.extractLsb' 32 32
/-- The number of 1 bits. -/
def ones (a : Word) : Word := BitVec.ofNat 32 ((List.range 32).map (fun i => (a.getLsbD i).toNat)).sum
/-- The number of 0 bits above the highest 1 bit; 32 for 0. -/
def zerosAbove (a : Word) : Word := if a = 0 then 32 else BitVec.ofNat 32 (31 - Nat.log2 a.toNat)
/-- The position a bit field starts at: b[4:0]. -/
def fieldPos (b : Word) : Nat := b.toNat % 32
/-- The width of a bit field, clipped to bit 31: min(b[13:8], 32, 32 − p). -/
def fieldWidth (b : Word) : Nat := min (b.toNat / 256 % 64) (32 - fieldPos b)
/-- `bfx`: bit i of the result is bit p+i of a inside the field; above it 0, or the field's top bit where b[16] is 1. -/
def extractField (a b : Word) : Word :=
  BitVec.ofBoolListLE ((List.range 32).map fun i =>
    if i < fieldWidth b then a.getLsbD (fieldPos b + i)
    else b.getLsbD 16 && decide (0 < fieldWidth b) && a.getLsbD (fieldPos b + fieldWidth b - 1))
/-- `bfi`: bits p to p+w−1 of d replaced by bits 0 to w−1 of a. -/
def insertField (a b d : Word) : Word :=
  BitVec.ofBoolListLE ((List.range 32).map fun i =>
    if fieldPos b ≤ i ∧ i < fieldPos b + fieldWidth b then a.getLsbD (i - fieldPos b) else d.getLsbD i)
/-- The integer conditions of R39, by their codes: eq, ne, lt.s, le.s, gt.s, ge.s, lt.u, le.u, gt.u, ge.u. -/
def holds {n : Nat} (c : BitVec 4) (a b : BitVec n) : Bool :=
  match c.toNat with
  | 0 => a == b
  | 1 => a != b
  | 2 => a.slt b
  | 3 => a.sle b
  | 4 => b.slt a
  | 5 => b.sle a
  | 6 => a.ult b
  | 7 => a.ule b
  | 8 => b.ult a
  | _ => b.ule a
/-- An FP32 code of a NaN (R122). -/
def nan (a : Word) : Bool := decide (0x7F800000 < (a &&& 0x7FFFFFFF).toNat)
/-- The FP conditions of R144, by their codes: eq, ne, lt, le, gt, ge, un, ord. -/
def compares (c : BitVec 4) (a b : Word) : Bool :=
  let less := (fp32.val a.toNat).lt (fp32.val b.toNat)
  let more := (fp32.val b.toNat).lt (fp32.val a.toNat)
  if nan a || nan b then c.toNat == 1 || c.toNat == 6
  else match c.toNat with
    | 0 => !less && !more
    | 1 => less || more
    | 2 => less
    | 3 => !more
    | 4 => more
    | 5 => !less
    | 6 => false
    | _ => true
/-- The operations of `pset` (R113). -/
def logic (o : BitVec 4) (a b : Bool) : Bool :=
  match o.toNat with
  | 0 => a && b
  | 1 => a || b
  | 2 => Bool.xor a b
  | 3 => a && !b
  | 4 => a
  | 5 => !a
  | 6 => true
  | _ => false

/-- The tagged pointer `lea.tp` composes for space `sp` (R173, R208): the space code in bits [63:60] and the fields of
a and b where the space has them; none where a source holds a bit outside them. -/
def pointer (sp : Nat) (a : W64) (b : Word) : Option W64 :=
  let w : W64 := b.setWidth 64
  let top : W64 := BitVec.ofNat 64 sp <<< 60
  match sp with
  | 0 | 3 => if a >>> 48 = 0 then some (top ||| a) else none
  | 1 => if a >>> 22 = 0 ∧ w >>> 10 = 0 then some (top ||| (w <<< 50) ||| a) else none
  | 2 => if a >>> 22 = 0 ∧ w >>> 19 = 0 then
      some (top ||| ((w &&& 0xFF) <<< 52) ||| (((w >>> 8) &&& 0x3FF) <<< 42) ||| ((w >>> 18) <<< 41) ||| a) else none
  | 4 => if a >>> 40 = 0 ∧ w >>> 20 = 0 then some (top ||| (w <<< 40) ||| a) else none
  | 5 => if a >>> 46 = 0 ∧ (a >>> 10) &&& 0xFFFFF = 0 ∧ w >>> 14 = 0 then
      some (top ||| ((w >>> 10) <<< 56) ||| (((w >>> 4) &&& 0x3F) <<< 50) ||| ((w &&& 0xF) <<< 46) ||| a) else none
  | _ => none

/-- R146's table: the special cases of the SFU functions. -/
def special (op : Nat) (a : Word) : Option Word :=
  let mag := a &&& 0x7FFFFFFF
  let neg := a.getLsbD 31
  let signed (v : Word) : Word := if neg then v ||| 0x80000000 else v
  let undef : Option Word := some 0x7FC00000
  if nan a then undef
  else if mag = 0 then
    match op with
    | 0x4A | 0x4B => some (signed 0x7F800000)
    | 0x4C | 0x4F => some a
    | 0x4E => some 0xFF800000
    | _ => some 0x3F800000
  else if mag = 0x7F800000 then
    match op with
    | 0x4A => some (signed 0)
    | 0x4B => if neg then undef else some 0
    | 0x4D => if neg then some 0 else some 0x7F800000
    | 0x4C | 0x4E => if neg then undef else some 0x7F800000
    | _ => undef
  else if neg && (op == 0x4B || op == 0x4C || op == 0x4E) then undef
  else if op = 0x4A ∧ mag < 0x00200000 then some (signed 0x7F800000)
  else if op = 0x4D ∧ neg = false ∧ 0x43000000 ≤ mag then some 0x7F800000
  else if op = 0x4D ∧ neg = true ∧ 0x43150000 < mag then some 0
  else if a = 0x3F800000 then
    match op with
    | 0x4A | 0x4B | 0x4C => some 0x3F800000
    | 0x4D => some 0x40000000
    | 0x4E => some 0
    | _ => none
  else none

/-- What a named source lane holds, and whether it is valid (R115). -/
def source (st : Strand) (n k : Nat) : Word × Bool := if (st.lane k).live then ((st.vreg n).read k, true) else (0, false)

/-- The source lane of lane k where it is in range (R116): kinds 0 from, 1 back, 2 fwd, 3 flip. -/
def laneFrom (kind : Nat) (wrap : Bool) (k : Nat) (b : Word) : Option Nat :=
  match kind with
  | 0 => some (b.toNat % 32)
  | 1 => if wrap then some ((k + 32 - b.toNat % 32) % 32) else if b.toNat ≤ k then some (k - b.toNat) else none
  | 2 => if wrap then some ((k + b.toNat % 32) % 32) else if k + b.toNat ≤ 31 then some (k + b.toNat) else none
  | _ => some (k ^^^ (b.toNat % 32))

/-- R91's table: the special value that selector n names in lane k of a strand; `c` is the strand's own or home workgroup,
and the unit that runs it is 16 times its die, or its stack and 64, and its core. -/
def named (s : State) (st : Strand) (c : Cx) (n k : Nat) : W64 :=
  let lane := if st.ctx = .L then k else (st.fg.map Forager.lane).getD 0
  let threads := st.ctx = .L ∨ st.ctx = .F
  let unit := s.unitOf st
  match n with
  | 0 => if threads then BitVec.ofNat 64 lane else 0
  | 1 => if threads then BitVec.ofNat 64 (32 * st.wid + lane) else 0
  | 2 => if threads then BitVec.ofNat 64 st.wid else 0
  | 3 => if st.ctx = .S then 0 else BitVec.ofNat 64 c.wg
  | 4 => BitVec.ofNat 64 (unit % 16)
  | 5 => BitVec.ofNat 64 (unit / 16)
  | 6 => (Config.nodeHandle c.node).setWidth 64
  | 7 => BitVec.ofNat 64 c.slice
  | _ => BitVec.ofNat 64 (s.cycle (unit / 16))

/-- R273's table: the statistic that selector n names. -/
def forages (s : State) (st : Strand) (c : Cx) (n : Nat) : Word :=
  let unit := s.unitOf st
  let own := s.strands.filter (fun e => e.2.cx == st.cx)
  let hosted (e : Nat × Strand) : Bool := match e.2.fg with
    | some g => g.unit == some unit && !g.queued && g.dest.isNone && (e.2.lane 0).st != .fault
    | none => false
  if st.ctx = .S ∧ n < 5 then 0 else
  match n with
  | 4 => BitVec.ofNat 32 ((own.flatMap (fun e => e.2.lanes)).filter (fun l => l.st == .away)).length
  | 5 => BitVec.ofNat 32 (s.strands.filter hosted).length
  | 6 => BitVec.ofNat 32 (s.arrivalsOf unit).length
  | 7 => if unit < 1024 then (s.core unit).arrived else (s.score unit).arrived
  | n => c.fstat.getD n 0

/-- Whether two keys are one key (R120). -/
def sameKey (feq : Bool) (j k : Nat) (a b : Word) : Bool :=
  if feq then
    if isNan32 a || isNan32 b then j == k else a == b || (a &&& 0x7FFFFFFF == 0 && b &&& 0x7FFFFFFF == 0)
  else a == b

/-- The lanes of a group with lane k's key. -/
def keyMask (st : Strand) (m : Word) (n : Nat) (feq : Bool) (k : Nat) : Word :=
  maskOf (fun j => inMask m j && sameKey feq j k (st.reg32 j n) (st.reg32 k n))

/-- Combine of R121: iadd, fadd, imax.s, imin.s. -/
def combine (o : Nat) (t v : Word) : Word :=
  match o with
  | 0 => t + v
  | 1 => fadd32 t v
  | 2 => if t.slt v then v else t
  | _ => if t.slt v then t else v

/-- The total of a key set in ascending lane order. -/
def total (o : Nat) (v : Nat → Word) : List Nat → Word
  | [] => 0
  | j :: js => js.foldl (fun t i => combine o t (v i)) (v j)

/-- A word of two halves, each the operation's result on the halves of its sources (R147). -/
def halfwise (op : Nat → Nat → Nat → Nat) (a b d : Word) : Word :=
  BitVec.ofNat 16 (op (a.toNat / 65536) (b.toNat / 65536) (d.toNat / 65536)) ++
  BitVec.ofNat 16 (op (a.toNat % 65536) (b.toNat % 65536) (d.toNat % 65536))

/-! ## Tags a whole write leaves (R95): 0 U, 1 A, 2 G -/

/-- U where all register sources are U, else G. -/
def uniformTag (ts : List Nat) : Nat := if ts.all (· == 0) then 0 else 2
/-- `iadd`, `iaddi`: U of two U, A of two U or A with an A among them. -/
def sumTag (a b : Nat) : Nat := if a = 2 ∨ b = 2 then 2 else if a = 0 ∧ b = 0 then 0 else 1
/-- `isub`: U − U is U, A − U and A − A are A. -/
def differenceTag (a b : Nat) : Nat := if a = 0 ∧ b = 0 then 0 else if a = 1 ∧ b ≠ 2 then 1 else 2
/-- `imul`: U × U is U, A × U and U × A are A. -/
def productTag (a b : Nat) : Nat := if a = 0 ∧ b = 0 then 0 else if a + b = 1 then 1 else 2

/-! ## Limb chains in the spec's own terms (R154, R160, R164, R165) -/

/-- Val: the value of chain c of n limbs read by `rd`. -/
def chain (rd : Nat → Word) (n c : Nat) : Nat := ((List.range n).map (fun k => (rd (c * n + k)).toNat * 2 ^ (32 * k))).sum
/-- SVal: its signed reading. -/
def signedChain (n v : Nat) : Int := if v < 2 ^ (32 * n - 1) then v else (v : Int) - 2 ^ (32 * n)
/-- Whether an integer lies outside the signed range of n limbs. -/
def outside (n : Nat) (x : Int) : Bool := decide (x < -2 ^ (32 * n - 1) ∨ 2 ^ (32 * n - 1) ≤ x)
/-- Whether every lane of chain c is in the group. -/
abbrev performs (m : Word) (n c : Nat) : Prop := ∀ k < 32, k / n = c → inMask m k = true
/-- A bound warp of n limbs to a chain. -/
structure Chains (st : Strand) (n : Nat) : Prop where
  log : 1 ≤ st.lcr.log2n.toNat ∧ st.lcr.log2n.toNat ≤ 5
  limbs : n = 2 ^ st.lcr.log2n.toNat
  spill : st.lcr.spill.length = 16
/-- A bound warp of n limbs to a chain whose group holds whole chains only. -/
structure Bound (st : Strand) (n : Nat) : Prop extends Chains st n where
  whole : ∀ k < 32, inMask st.group k = true → performs st.group n (k / n)
/-- What one limb instruction gives one chain: the integer whose low n limbs it writes, its flags and its spill slot. -/
structure Chained where
  x : Int
  co : Bool
  ov : Bool
  spill : Word
/-- The strand after every performing chain c took `r c`; other chains, registers and flags are kept. -/
def Strand.Chains (st st' : Strand) (n d : Nat) (r : Nat → Chained) : Prop :=
  st' = { st with vregs := st'.vregs, lcr := st'.lcr } ∧ st'.lcr.log2n = st.lcr.log2n ∧
  (∀ j, j ≠ d → st'.vreg j = st.vreg j) ∧
  (∀ k < 32, inMask st.group k = false → st'.reg32 k d = st.reg32 k d) ∧
  (∀ k < 32, inMask st.group k = true → st'.reg32 k d = BitVec.ofInt 32 ((r (k / n)).x / 2 ^ (32 * (k % n)))) ∧
  ∀ c < 16, (c < 32 / n ∧ performs st.group n c →
      st'.lcr.carry.getLsbD c = (r c).co ∧ st'.lcr.ovf.getLsbD c = (r c).ov ∧ st'.lcr.spill.getD c 0 = (r c).spill) ∧
    (¬ (c < 32 / n ∧ performs st.group n c) →
      st'.lcr.carry.getLsbD c = st.lcr.carry.getLsbD c ∧ st'.lcr.ovf.getLsbD c = st.lcr.ovf.getLsbD c ∧
      st'.lcr.spill.getD c 0 = st.lcr.spill.getD c 0)

/-! ## Engine commands (R175, R228) -/

/-- Steps 1 to 3 of R175 on n bytes from a pointer, in the spaces an engine may use. -/
def reachable (p : W64) (n : Nat) : Bool :=
  let at_ (w : Nat) : Bool := decide (p.toNat % 2 ^ w + n ≤ 2 ^ w)
  match p.toNat / 2 ^ 60 with
  | 0 => decide (p.toNat / 2 ^ 48 % 2 ^ 12 = 0) && at_ 48
  | 1 => decide (p.toNat / 2 ^ 22 % 2 ^ 28 = 0) && at_ 22
  | 2 => decide (p.toNat / 2 ^ 22 % 2 ^ 19 = 0) && at_ 22
  | 4 => at_ 40
  | _ => false

/-! ## Runs that end (R64, R67) -/

/-- When the current strand ends its run nothing but the acts of its own group happens: it is an unbound warp outside any
routine, on its core, with no fault, no replay of a lane and no request to save it, and its other lanes stand ready or have
left. -/
structure EndsAlone (s : State) (st : Strand) : Prop where
  warp : st.ctx = .L ∧ st.fg = none ∧ st.bound = false ∧ st.routine = .none ∧ st.trail = none
  here : s.savedAway s.cur = false
  request : ∀ c, s.cx st.cx = some c → c.preempt = none
  replays : ∀ r ∈ (s.func (s.fnOf st)).replays, r.strand ≠ s.cur
  lanes : ∀ k < 32, (st.lane k).flts = [] ∧ (st.lane k).act = none ∧
    (inMask st.group k = false → (st.lane k).st ∈ [LaneSt.ready, .exited, .never])

/-- Whether `trail f` names a pending instruction (R85). -/
def trailed (f : Rrr) (p : Pend) : Bool :=
  !p.trailed && p.cnt != 0 && [f.d.toNat, f.a.toNat, f.b.toNat].any (fun r => decide (r < 56 ∧ p.dst ≤ r ∧ r < p.dst + p.cnt))

/-! ## Accesses that return (R175, R195, R201 to R206, R210) -/

/-- Lane c of pending access `p` comes to `out` of its resolution, in state `s1` and with location `q` (R175): what orders
it has been performed, and no walk holds it. -/
structure Reaches (s s1 : State) (i : Nat) (st : Strand) (p : Pend) (c : Cap) (q : W64) (out : Rs) : Prop where
  pending : s.Pending i st p
  lanes : st.lanes.length ≤ 32 ∧ c.lane < st.lanes.length ∧ (st.ctx ≠ .L → c.lane = 0) ∧ (st.lane c.lane).st ≠ .never
  regs : st.vregs.length = 56 ∧ st.sregs.length = 56 ∧ p.dst + p.cnt ≤ 56
  count : p.cnt = accCount p.op st.ctx.wide p.f
  found : c ∈ p.caps ∧ p.caps.filter (fun d => decide (d.lane = c.lane)) = [c]
  walked : (s.die (dieOfUnit (s.unitOf st))).misses = []
  strong : isAcq p.op = true ∨ isAtom p.op = true ∨ isRel p.op = true →
    ∀ w ∈ s.inflight, (w.strand, w.lane) = st.thread i c.lane → w.strong = false
  release : isRel p.op = true → s.workDone i c.lane p.f.b p.seq = true
  resolved : s.resolve st (p.addrLane c.lane) c.ptr (accOff p.op p.f + p.limbOff c.lane) (accSize p.op p.f)
    { accNeed p.op with who := some (2 * p.id) } (isAtom p.op || isRed p.op) = (s1, q, out)
  kept : s1.strand i = some st

/-- The order a lane reads in: its thread's, with the writes that this access must see (R210, R216). -/
def ordOf (st : Strand) (p : Pend) (c : Cap) : Ord := { (st.lane c.lane).ord with must := (p.ord c.lane).must }

/-- An ordinary read of n bytes at a place returns `v`: its thread has nothing in flight there that it may not pass, or
nothing at all where higher lanes of the instruction read the same bytes (`shared`, R203), every write it must see is there,
and `v` is what its thread's view holds; `s2` has the writes it returns in that view (R210). -/
structure Reads (s1 s2 : State) (i : Nat) (st : Strand) (p : Pend) (c : Cap) (shared : Bool) (path : Path) (loc n v : Nat) : Prop where
  own : ∀ w ∈ s1.inflight, w.overlaps loc n = true → (w.strand, w.lane) = st.thread i c.lane → w.path = path →
    w.op = .store ∧ shared = false
  must : s1.mustWait (p.ord c.lane).must path loc n (fun w =>
    w.strand == (st.thread i c.lane).1 && w.lane == (st.thread i c.lane).2 && w.path == path) = false
  view : s1.look (ordOf st p c) (st.thread i c.lane).1 (st.thread i c.lane).2 path (dieOfUnit (s1.unitOf st)) loc n = some s2
  value : v = leNat (s1.viewRead (ordOf st p c) (st.thread i c.lane).1 (st.thread i c.lane).2 path (dieOfUnit (s1.unitOf st)) loc n)

/-- A read of a home's latest value may be performed: nothing of its thread is in flight there, and every write it must see
is there (R212). -/
def Free (s1 : State) (i : Nat) (st : Strand) (p : Pend) (c : Cap) (path : Path) (loc n : Nat) : Prop :=
  (∀ w ∈ s1.inflight, w.overlaps loc n = true → (w.strand, w.lane) ≠ st.thread i c.lane) ∧
  s1.mustWait (p.ord c.lane).must path loc n (fun _ => false) = false

/-- Result `v` of a load or atomic as the bits of its registers: extended as the opcode says (R202). -/
def extended (op v : Nat) : W128 :=
  match op with
  | 0x81 => ((BitVec.ofNat 8 v).signExtend 64).setWidth 128
  | 0x83 => ((BitVec.ofNat 16 v).signExtend 64).setWidth 128
  | _ => BitVec.ofNat 128 v

/-- The registers of `p` after `v` returned in the lanes of `m`, the other registers, the states, addresses and predicates of
all lanes being as before. In lane code each 32-bit register holds its word of `v`, U where `p` leaves its registers so and
else G, with what the other lanes read unchanged; in lead and stack-core code each register holds 64 bits (R101, R201, R202). -/
structure Filled (st st' : Strand) (p : Pend) (m : Word) (v : W128) : Prop where
  others : ∀ n, n < p.dst ∨ p.dst + p.cnt ≤ n → st'.vreg n = st.vreg n ∧ st'.sreg n = st.sreg n
  lanes : ∀ k, (st'.lane k).st = (st.lane k).st ∧ (st'.lane k).pc = (st.lane k).pc ∧ (st'.lane k).preds = (st.lane k).preds
  wide : st.ctx.wide = true → ∀ j < p.cnt, st'.sreg (p.dst + j) = (v >>> (64 * j)).setWidth 64
  narrow : st.ctx.wide = false → ∀ j < p.cnt, ∀ k < 32, inMask m k = true → (st.lane k).st ≠ .never →
    st'.reg32 k (p.dst + j) = (v >>> (32 * j)).setWidth 32
  uniform : st.ctx = .L → (p.whole && p.tagU) = true → ∀ j < p.cnt, st'.vreg (p.dst + j) = .u ((v >>> (32 * j)).setWidth 32)
  general : st.ctx = .L → (p.whole && p.tagU) = false → ∀ j < p.cnt, (st'.vreg (p.dst + j)).tag = 2 ∧
    ∀ k < 32, inMask m k = false → st'.reg32 k (p.dst + j) = st.reg32 k (p.dst + j)

/-- No lane of `m` waits for `p` any more. -/
def Left (st' : Strand) (p : Pend) (m : Word) : Prop := ∀ q ∈ st'.pends, q.id = p.id → ∀ d ∈ q.caps, inMask m d.lane = false

/-- The new value of R205's table at the home: old value t, operand v, and for `cas` the value to store, of w bits. -/
def combined (op w t v new : Nat) : Nat :=
  match op with
  | 0x90 => (t + v) % 2 ^ w
  | 0x91 => if (BitVec.ofNat w v).slt (BitVec.ofNat w t) then v else t
  | 0x92 => if (BitVec.ofNat w t).slt (BitVec.ofNat w v) then v else t
  | 0x93 => t &&& v
  | 0x94 => t ||| v
  | 0x95 => t ^^^ v
  | 0x96 => v
  | 0x97 => if t = v then new else t
  | 0x98 => fp32.round 0 (sumNum 0 [fp32.val t, fp32.val v])
  | _ => bf16.round 0 (sumNum 0 [bf16.val (t / 65536), bf16.val (v / 65536)]) * 65536 +
      bf16.round 0 (sumNum 0 [bf16.val (t % 65536), bf16.val (v % 65536)])

/-! ## The rows of the opcode table that issue (R37) -/

/-- The instructions of format RRR with opcodes 0x00 to 0x43. -/
def rows0 (f : Rrr) : List (Instr × Nat) :=
  [(Instr.mov f, 0x00), (.iadd f, 0x01), (.isub f, 0x02), (.imul f, 0x03), (.imulhS f, 0x04), (.imulhU f, 0x05), (.imad f, 0x06), (.iaddI64 f, 0x07),
    (.isubI64 f, 0x08), (.imulI64 f, 0x09), (.bitAnd f, 0x0A), (.bitOr f, 0x0B), (.bitXor f, 0x0C), (.shl f, 0x0D), (.shrU f, 0x0E), (.shrS f, 0x0F),
    (.iminS f, 0x10), (.imaxS f, 0x11), (.iminU f, 0x12), (.imaxU f, 0x13), (.popc f, 0x14), (.clz f, 0x15), (.bfx f, 0x16), (.bfi f, 0x17),
    (.icmp f, 0x18), (.icmpI64 f, 0x19), (.isel f, 0x1A), (.leaTp f, 0x23), (.rdsp f, 0x24), (.pset f, 0x25), (.predv f, 0x26), (.vpred f, 0x27),
    (.shape f, 0x28), (.unify f, 0x29), (.xlaneFrom f, 0x2A), (.xlaneBack f, 0x2B), (.xlaneFwd f, 0x2C), (.xlaneFlip f, 0x2D), (.bcast f, 0x2E),
    (.matchKey f, 0x2F), (.mred f, 0x30), (.fadd f, 0x40), (.fsub f, 0x41), (.fmul f, 0x42), (.ffma f, 0x43)]
/-- The instructions of format RRR with opcodes 0x44 to 0x84. -/
def rows1 (f : Rrr) : List (Instr × Nat) :=
  [(Instr.fopRm f, 0x44), (.fmin f, 0x45), (.fmax f, 0x46), (.fabs f, 0x47), (.fneg f, 0x48), (.fcmp f, 0x49), (.frcp f, 0x4A), (.frsq f, 0x4B),
    (.fsqrt f, 0x4C), (.fex2 f, 0x4D), (.flg2 f, 0x4E), (.fsin f, 0x4F), (.fcos f, 0x50), (.hop2 f, 0x51), (.hdot2 f, 0x52), (.cvtFI f, 0x53),
    (.cvtIF f, 0x54), (.cvtHF f, 0x55), (.cvtFH f, 0x56), (.cvtQF f, 0x57), (.cvtFQ f, 0x58), (.packH2 f, 0x59), (.packQ4 f, 0x5A), (.zbenc f, 0x5B),
    (.zbdec f, 0x5C), (.lbind f, 0x70), (.lfree f, 0x71), (.ladd f, 0x72), (.lsub f, 0x73), (.lneg f, 0x74), (.lshl f, 0x75), (.lshrU f, 0x76),
    (.lshrS f, 0x77), (.lrot f, 0x78), (.lmad f, 0x79), (.lspill f, 0x7A), (.lcmp f, 0x7B), (.lld f, 0x7C), (.lst f, 0x7D), (.lstat f, 0x7E),
    (.ldZ8 f, 0x80), (.ldS8 f, 0x81), (.ldZ16 f, 0x82), (.ldS16 f, 0x83), (.ldB32 f, 0x84)]
/-- The instructions of format RRR with opcodes 0x85 to 0xB7. -/
def rows2 (f : Rrr) : List (Instr × Nat) :=
  [(Instr.ldB64 f, 0x85), (.ldB128 f, 0x86), (.stB8 f, 0x87), (.stB16 f, 0x88), (.stB32 f, 0x89), (.stB64 f, 0x8A), (.stB128 f, 0x8B),
    (.ldAcqB32 f, 0x8C), (.ldAcqB64 f, 0x8D), (.stRelB32 f, 0x8E), (.stRelB64 f, 0x8F), (.atomAdd f, 0x90), (.atomMinS f, 0x91), (.atomMaxS f, 0x92),
    (.atomAnd f, 0x93), (.atomOr f, 0x94), (.atomXor f, 0x95), (.atomXchg f, 0x96), (.atomCas f, 0x97), (.atomFadd f, 0x98), (.atomBfadd2 f, 0x99),
    (.redAdd f, 0x9A), (.redFadd f, 0x9B), (.cache f, 0x9C), (.fence f, 0x9D), (.xfence f, 0x9E), (.forage f, 0xA0), (.forageTry f, 0xA1),
    (.home f, 0xA2), (.fstat f, 0xA3), (.jr f, 0xAD), (.ret f, 0xAE), (.exit f, 0xAF), (.jset f, 0xB0), (.jadd f, 0xB1), (.join f, 0xB2),
    (.trail f, 0xB3), (.vote f, 0xB5), (.wqPush f, 0xB6), (.wqPop f, 0xB7)]
/-- The instructions of format RRR with opcodes 0xB8 to 0xF5. -/
def rows3 (f : Rrr) : List (Instr × Nat) :=
  [(Instr.brk f, 0xB8), (.cpL f, 0xC0), (.cpT f, 0xC1), (.cpG f, 0xC2), (.cpGcm f, 0xC3), (.cpStat f, 0xC4), (.cpCancel f, 0xC5), (.barInit f, 0xC6),
    (.barArrive f, 0xC7), (.barExpect f, 0xC8), (.barWait f, 0xC9), (.barTest f, 0xCA), (.barInval f, 0xCB), (.obres f, 0xD0), (.obrel f, 0xD1),
    (.mma f, 0xD2), (.mconv f, 0xD3), (.mzero f, 0xD4), (.mld f, 0xD5), (.mst f, 0xD6), (.mwait f, 0xD7), (.mstat f, 0xD8), (.cmode f, 0xE0),
    (.cbcast f, 0xE1), (.cldRow f, 0xE2), (.cstRow f, 0xE3), (.cmac f, 0xE4), (.cdot f, 0xE5), (.cred f, 0xE6), (.cwr f, 0xE7), (.clut f, 0xE8),
    (.cattn f, 0xE9), (.ctblWr f, 0xEA), (.ctblSwap f, 0xEB), (.csync f, 0xEC), (.cstat f, 0xED), (.nodeSpawn f, 0xF0), (.trapi f, 0xF4),
    (.rti f, 0xF5)]
/-- The 16-bit instructions but `mov`, and the opcode of the form each stands for. -/
def rowsShort (z : H16) : List (Instr × Nat) :=
  [(Instr.iadd16 z, 0x01), (.isub16 z, 0x02), (.imul16 z, 0x03), (.bitAnd16 z, 0x0A), (.bitOr16 z, 0x0B), (.bitXor16 z, 0x0C), (.shl16 z, 0x0D),
    (.shrU16 z, 0x0E), (.shrS16 z, 0x0F), (.iminS16 z, 0x10), (.imaxS16 z, 0x11), (.fadd16 z, 0x40), (.fsub16 z, 0x41), (.fmul16 z, 0x42),
    (.fmax16 z, 0x46)]
/-- Every instruction that issues, with its issue form: `groups` is how many groups the kernel of the strand has. -/
def issues (groups : Nat) (f : Rrr) (g : Rri) (j : Ri16) (b : Br) (l : Brl) (z : H16) : List (Instr × Hd) :=
  (rows0 f ++ rows1 f ++ rows2 f ++ rows3 f).map (fun p => (p.1, rrr p.2 f)) ++
  [(.callr f, { rrr 0xAC f with more := [54, 55] }), (.waitr f, { rrr 0xB4 f with more := List.range 56 }),
    (.sysrd f, sysHd 0xF2 f), (.syswr f, sysHd 0xF3 f),
    (.grp f, let h := rrr 0xF1 f; { h with ok := h.ok && decide (f.a.toNat % 4 < groups) }),
    (.iaddi g, rri 0x1D g), (.andi g, rri 0x1E g), (.ori g, rri 0x1F g), (.shli g, rri 0x20 g), (.shriU g, rri 0x21 g), (.shriS g, rri 0x22 g),
    (.movi j, ri16 0x1B j), (.movhi j, ri16 0x1C j),
    (.br b, brw 0xA8 b), (.brL l, brlw 0xA9 l), (.call b, { brw 0xAA b with more := [54, 55] }), (.callL l, { brlw 0xAB l with more := [54, 55] }),
    (.mov16 z, hdShort 0x00 (h16WideMov z))] ++ (rowsShort z).map (fun p => (p.1, hdShort p.2 (h16Wide z)))

end Sys2Proof.Claims

open Sys2Proof.Claims

/-- R106, R108: the three-register integer instructions write the table's value to d in each lane whose guard is
true; `mov` of a register to itself writes nothing. R95: a whole write of lane code tags d as R95's table says. -/
def Obligations.IntegerResults : Prop :=
  ∀ (s : State) (st : Strand) (f : Rrr),
    let a (k : Nat) : Word := st.src k f.a
    let b (k : Nat) : Word := st.src k f.b
    let old (k : Nat) : Word := st.reg32 k f.d.toNat
    let ta := (st.srcShape f.a).tag
    let tb := (st.srcShape f.b).tag
    let td := (st.vreg f.d.toNat).tag
    let gives (i : Instr) (op : Nat) (v : Nat → Word) (t : Nat) : Prop := s.Leaves32 st i (rrr op f) f.d.toNat v t
    (f.d ≠ f.a → gives (.mov f) 0x00 a ta) ∧
    (f.d = f.a → s.Ready st (rrr 0x00 f) → s.Does st (.mov f) (rrr 0x00 f) ⟨s, .reg f.d.toNat, [], false⟩) ∧
    gives (.iadd f) 0x01 (fun k => a k + b k) (sumTag ta tb) ∧
    gives (.isub f) 0x02 (fun k => a k - b k) (differenceTag ta tb) ∧
    gives (.imul f) 0x03 (fun k => a k * b k) (productTag ta tb) ∧
    gives (.imulhS f) 0x04 (fun k => high ((a k).signExtend 64 * (b k).signExtend 64)) (uniformTag [ta, tb]) ∧
    gives (.imulhU f) 0x05 (fun k => high ((a k).setWidth 64 * (b k).setWidth 64)) (uniformTag [ta, tb]) ∧
    gives (.imad f) 0x06 (fun k => a k * b k + old k) (uniformTag [ta, tb, td]) ∧
    gives (.bitAnd f) 0x0A (fun k => a k &&& b k) (uniformTag [ta, tb]) ∧
    gives (.bitOr f) 0x0B (fun k => a k ||| b k) (uniformTag [ta, tb]) ∧
    gives (.bitXor f) 0x0C (fun k => a k ^^^ b k) (uniformTag [ta, tb]) ∧
    gives (.shl f) 0x0D (fun k => a k <<< (b k).toNat) (uniformTag [ta, tb]) ∧
    gives (.shrU f) 0x0E (fun k => a k >>> (b k).toNat) (uniformTag [ta, tb]) ∧
    gives (.shrS f) 0x0F (fun k => (a k).sshiftRight (b k).toNat) (uniformTag [ta, tb]) ∧
    gives (.iminS f) 0x10 (fun k => if (a k).slt (b k) then a k else b k) (uniformTag [ta, tb]) ∧
    gives (.imaxS f) 0x11 (fun k => if (a k).slt (b k) then b k else a k) (uniformTag [ta, tb]) ∧
    gives (.iminU f) 0x12 (fun k => if (a k).ult (b k) then a k else b k) (uniformTag [ta, tb]) ∧
    gives (.imaxU f) 0x13 (fun k => if (a k).ult (b k) then b k else a k) (uniformTag [ta, tb]) ∧
    gives (.popc f) 0x14 (fun k => ones (a k)) (uniformTag [ta]) ∧
    gives (.clz f) 0x15 (fun k => zerosAbove (a k)) (uniformTag [ta]) ∧
    gives (.bfx f) 0x16 (fun k => extractField (a k) (b k)) (uniformTag [ta, tb]) ∧
    gives (.bfi f) 0x17 (fun k => insertField (a k) (b k) (old k)) (uniformTag [ta, tb, td])

/-- R33: the 16-bit forms do what their 32-bit equivalents do, with d their first source. R95: a whole write tags d alike. -/
def Obligations.ShortFormResults : Prop :=
  ∀ (s : State) (st : Strand) (f : H16),
    let w := h16Wide f
    let a (k : Nat) : Word := st.reg32 k f.d.toNat
    let b (k : Nat) : Word := st.src k w.b
    let ta := (st.vreg f.d.toNat).tag
    let tb := (st.srcShape w.b).tag
    let gives (i : Instr) (op : Nat) (v : Nat → Word) (t : Nat) : Prop := s.Leaves32 st i (hdShort op w) f.d.toNat v t
    ((h16WideMov f).d ≠ (h16WideMov f).a →
      s.Leaves32 st (.mov16 f) (hdShort 0x00 (h16WideMov f)) f.d.toNat (fun k => st.src k (h16WideMov f).a) (st.srcShape (h16WideMov f).a).tag) ∧
    ((h16WideMov f).d = (h16WideMov f).a → s.Ready st (hdShort 0x00 (h16WideMov f)) →
      s.Does st (.mov16 f) (hdShort 0x00 (h16WideMov f)) ⟨s, .reg f.d.toNat, [], false⟩) ∧
    gives (.iadd16 f) 0x01 (fun k => a k + b k) (sumTag ta tb) ∧
    gives (.isub16 f) 0x02 (fun k => a k - b k) (differenceTag ta tb) ∧
    gives (.imul16 f) 0x03 (fun k => a k * b k) (productTag ta tb) ∧
    gives (.bitAnd16 f) 0x0A (fun k => a k &&& b k) (uniformTag [ta, tb]) ∧
    gives (.bitOr16 f) 0x0B (fun k => a k ||| b k) (uniformTag [ta, tb]) ∧
    gives (.bitXor16 f) 0x0C (fun k => a k ^^^ b k) (uniformTag [ta, tb]) ∧
    gives (.shl16 f) 0x0D (fun k => a k <<< (b k).toNat) (uniformTag [ta, tb]) ∧
    gives (.shrU16 f) 0x0E (fun k => a k >>> (b k).toNat) (uniformTag [ta, tb]) ∧
    gives (.shrS16 f) 0x0F (fun k => (a k).sshiftRight (b k).toNat) (uniformTag [ta, tb]) ∧
    gives (.iminS16 f) 0x10 (fun k => if (a k).slt (b k) then a k else b k) (uniformTag [ta, tb]) ∧
    gives (.imaxS16 f) 0x11 (fun k => if (a k).slt (b k) then b k else a k) (uniformTag [ta, tb]) ∧
    gives (.fadd16 f) 0x40 (fun k => fadd32 (a k) (b k)) (uniformTag [ta, tb]) ∧
    gives (.fsub16 f) 0x41 (fun k => fsub32 (a k) (b k)) (uniformTag [ta, tb]) ∧
    gives (.fmul16 f) 0x42 (fun k => fmul32 (a k) (b k)) (uniformTag [ta, tb]) ∧
    gives (.fmax16 f) 0x46 (fun k => fmaxOp (a k) (b k)) (uniformTag [ta, tb])

/-- R109, R110: the immediate forms write their result to d in each lane whose guard is true: the sum with the
sign-extended immediate, the AND and OR with it zero-extended, the shifts by it, the sign-extended 16 bits of `movi`,
and for `movhi` those bits above the low half d had. R95: a whole write tags d as its source and a U immediate give. -/
def Obligations.ImmediateResults : Prop :=
  ∀ (s : State) (st : Strand),
    (∀ f : Rri,
      let a (k : Nat) : Word := st.src k f.a
      let t := (st.srcShape f.a).tag
      let gives (i : Instr) (op : Nat) (v : Nat → Word) (t : Nat) : Prop := s.Leaves32 st i (rri op f) f.d.toNat v t
      gives (.iaddi f) 0x1D (fun k => a k + f.imm.signExtend 32) (sumTag t 0) ∧
      gives (.andi f) 0x1E (fun k => a k &&& f.imm.setWidth 32) (uniformTag [t]) ∧
      gives (.ori f) 0x1F (fun k => a k ||| f.imm.setWidth 32) (uniformTag [t]) ∧
      gives (.shli f) 0x20 (fun k => a k <<< f.imm.toNat) (uniformTag [t]) ∧
      gives (.shriU f) 0x21 (fun k => a k >>> f.imm.toNat) (uniformTag [t]) ∧
      gives (.shriS f) 0x22 (fun k => (a k).sshiftRight f.imm.toNat) (uniformTag [t])) ∧
    (∀ f : Ri16,
      s.Leaves32 st (.movi f) (ri16 0x1B f) f.d.toNat (fun _ => f.imm.signExtend 32) 0 ∧
      s.Leaves32 st (.movhi f) (ri16 0x1C f) f.d.toNat (fun k => f.imm ++ (st.reg32 k f.d.toNat).extractLsb' 0 16)
        (uniformTag [(st.vreg f.d.toNat).tag]))

/-- R107, R208: the 64-bit forms and `lea.tp` write a pair. A lane in which `lea.tp` finds a source bit outside the
fields of its pointer traps with ADDR_SPACE and writes nothing; the others write their pointers. R95: a whole write tags
both registers U where every source register is U, and else G. -/
def Obligations.PairResults : Prop :=
  ∀ (s : State) (st : Strand) (f : Rrr),
    let a (k : Nat) : W64 := st.pair k f.a.toNat
    let b (k : Nat) : W64 := st.pair k f.b.toNat
    let u (n : Nat) : Bool := (st.vreg n).tag == 0 && (st.vreg (n + 1)).tag == 0
    let t := if u f.a.toNat && u f.b.toNat then 0 else 2
    let gives (i : Instr) (op : Nat) (v : Nat → W64) : Prop := s.Leaves64 st i (rrr op f) f.d.toNat v t
    gives (.iaddI64 f) 0x07 (fun k => a k + b k) ∧
    gives (.isubI64 f) 0x08 (fun k => a k - b k) ∧
    gives (.imulI64 f) 0x09 (fun k => a k * b k) ∧
    (let h := rrr 0x23 f
     let p (k : Nat) : Option W64 := pointer f.x.toNat (a k) (st.src k f.b)
     let bad := maskOf (fun k => inMask (s.iss st h).g k && (p k).isNone)
     let left := if bad = 0 then s else s.trapLanes s.cur bad 0x07 (s.iss st h).pc 4 0
     let good := (s.iss st h).g &&& ~~~bad
     let t := if u f.a.toNat && (f.x = 0 || f.x = 3 || (st.srcShape f.b).tag = 0) then 0 else 2
     s.Ready st h → ∃ mid st', left.strand s.cur = some mid ∧
       s.Does st (.leaTp f) h ⟨left.putStrand s.cur st', .reg f.d.toNat, [], false⟩ ∧
       mid.Wrote64 st' good f.d.toNat (fun k => (p k).getD 0) ∧ mid.Tagged st' good f.d.toNat t ∧ mid.Tagged st' good (f.d.toNat + 1) t)

/-- R111, R113, R144: the compares write their condition of a and b, and `pset` its operation on two predicates, to the
destination predicate in every lane of the group. R144: with a NaN among its operands `fcmp` holds for `ne` and `un` only. -/
def Obligations.PredicateResults : Prop :=
  ∀ (s : State) (st : Strand) (f : Rrr),
    let gives (i : Instr) (op : Nat) (v : Nat → Bool) : Prop := s.GivesPred st i (rrr op f) (f.d.toNat % 8) v
    gives (.icmp f) 0x18 (fun k => holds f.x (st.src k f.a) (st.src k f.b)) ∧
    gives (.icmpI64 f) 0x19 (fun k => holds f.x (st.pair k f.a.toNat) (st.pair k f.b.toNat)) ∧
    gives (.fcmp f) 0x49 (fun k => compares f.x (st.src k f.a) (st.src k f.b)) ∧
    gives (.pset f) 0x25 (fun k => logic f.x (st.pred k f.a.toNat) (st.pred k f.b.toNat))

/-- R112, R114: `isel` writes a where the selector is true and b elsewhere; `predv` packs the predicates into a register
and `vpred` takes them from one. -/
def Obligations.SelectAndPack : Prop :=
  ∀ (s : State) (st : Strand) (f : Rrr),
    s.Gives32 st (.isel f) (rrr 0x1A f) f.d.toNat (fun k => if st.guardTrue k f.x then st.src k f.a else st.src k f.b) ∧
    s.Gives32 st (.predv f) (rrr 0x26 f) f.d.toNat (fun k => (st.lane k).preds.setWidth 32) ∧
    (s.Ready st (rrr 0x27 f) → ∃ st', s.Does st (.vpred f) (rrr 0x27 f) ⟨s.putStrand s.cur st', .nothing, [], false⟩ ∧
      st' = { st with lanes := st'.lanes } ∧ st'.lanes.length = st.lanes.length ∧
      ∀ k < st.lanes.length, st'.lane k = if inMask (s.iss st (rrr 0x27 f)).g k = true then
        { st.lane k with preds := (st.src k f.a).setWidth 7 } else st.lane k)

/-- R116 to R118, R120, R121, R151, R152: the cross-lane instructions. A lane reads a named lane's register, or is
told that it is not there; keys group lanes; a block is encoded over the group. -/
def Obligations.CrossLaneResults : Prop :=
  ∀ (s : State) (st : Strand) (f : Rrr),
    let m := st.group
    let d := f.d.toNat
    let done (i : Instr) (op : Nat) (st' : Strand) : Prop := s.Does st i (rrr op f) ⟨s.putStrand s.cur st', .reg d, [], false⟩
    let xlane (i : Instr) (op kind : Nat) : Prop :=
      let ans (k : Nat) : Word × Bool :=
        match laneFrom kind (8 ≤ f.x.toNat) k (st.src k f.b) with
        | some j => source st f.a.toNat j
        | none => (st.reg32 k f.a.toNat, false)
      s.Ready st (rrr op f) → ∃ mid st', done i op st' ∧ st.Wrote32 mid m d (fun k => (ans k).1) ∧
        (if f.x.toNat % 8 = 7 then st' = mid else mid.WrotePred st' m (f.x.toNat % 8) (fun k => (ans k).2))
    xlane (.xlaneFrom f) 0x2A 0 ∧ xlane (.xlaneBack f) 0x2B 1 ∧ xlane (.xlaneFwd f) 0x2C 2 ∧ xlane (.xlaneFlip f) 0x2D 3 ∧
    s.Gives32 st (.bcast f) (rrr 0x2E f) d
      (fun _ => (source st f.a.toNat ((st.src (lowest (s.iss st (rrr 0x2E f)).g) f.b).toNat % 32)).1) ∧
    s.Gives32 st (.shape f) (rrr 0x28 f) d (fun _ => BitVec.ofNat 32 (st.vreg f.a.toNat).tag) ∧
    s.Gives32 st (.matchKey f) (rrr 0x2F f) d (keyMask st m f.a.toNat (f.x.getLsbD 0)) ∧
    (s.Ready st (rrr 0x30 f) →
      let set := keyMask st m f.a.toNat (f.x.getLsbD 0)
      ∃ mid st', done (.mred f) 0x30 st' ∧
        st.Wrote32 mid m d (fun k => if lowest (set k) = k then total (f.x.toNat / 2 % 4) (fun j => st.src j f.b) (lanesOf (set k)) else 0) ∧
        mid.Wrote32 st' m (d + 1) (fun _ => maskOf (fun k => inMask m k && lowest (set k) == k))) ∧
    s.Gives32 st (.packQ4 f) (rrr 0x5A f) d (fun k =>
      let q (v : Nat) : BitVec 8 := BitVec.ofNat 8 ((fmt8 (f.x.getLsbD 0)).sat (f.x.toNat / 4) (fp32.val v))
      q ((st.pair k f.b.toNat).toNat / 2 ^ 32) ++ q ((st.pair k f.b.toNat).toNat % 2 ^ 32) ++
        q ((st.pair k f.a.toNat).toNat / 2 ^ 32) ++ q ((st.pair k f.a.toNat).toNat % 2 ^ 32)) ∧
    (s.Ready st (rrr 0x5B f) →
      let zb4 := f.x.getLsbD 0
      let b := st.src (lowest m) f.b
      let k := if b.getLsbD 4 then (if zb4 then 3 else 4) else b.toNat % 16
      let block := zbEncode zb4 k ((lanesOf m).map (fun j => fp32.val (st.src j f.a).toNat))
      ∃ mid st', done (.zbenc f) 0x5B st' ∧
        st.Wrote32 mid m d (fun j => BitVec.ofNat 32 (block.1.getD ((lanesOf m).idxOf j) 0)) ∧
        mid.Wrote32 st' m (d + 1) (fun _ => BitVec.ofNat 32 (block.2.1 + 256 * block.2.2)))

/-- R119: `unify` tells whether every lane of the group holds one value, and where it does in every lane present
it makes the register uniform without changing what any lane reads. -/
def Obligations.UnifyResult : Prop :=
  ∀ (s : State) (st : Strand) (f : Rrr), s.Ready st (rrr 0x29 f) →
    let n := f.a.toNat
    let v := st.reg32 (lowest st.group) n
    let eq := (lanesOf st.group).all (fun k => st.reg32 k n = v)
    ∃ mid st', s.Does st (.unify f) (rrr 0x29 f) ⟨s.putStrand s.cur st', .nothing, [], false⟩ ∧
      st.WrotePred mid st.group (f.d.toNat % 8) (fun _ => eq) ∧
      (if eq = true ∧ st.group = st.wholeMask then
        st' = { mid with vregs := st'.vregs } ∧ st'.vreg n = .u v ∧ ∀ j, j ≠ n → st'.vreg j = st.vreg j
       else st' = mid)

/-- R134, R141 to R143, R147 to R153: the floating-point lane instructions and conversions write the rounded result. -/
def Obligations.FloatResults : Prop :=
  ∀ (s : State) (st : Strand) (f : Rrr),
    let a (k : Nat) : Word := st.src k f.a
    let b (k : Nat) : Word := st.src k f.b
    let old (k : Nat) : Word := st.reg32 k f.d.toNat
    let x := f.x.toNat
    let gives (i : Instr) (op : Nat) (v : Nat → Word) : Prop := s.Gives32 st i (rrr op f) f.d.toNat v
    let code (F : Fmt) (rm : Nat) (n : FpNum) : Nat := F.round rm n
    gives (.fadd f) 0x40 (fun k => BitVec.ofNat 32 (code fp32 0 (sumNum 0 [fp32.val (a k).toNat, fp32.val (b k).toNat]))) ∧
    gives (.fsub f) 0x41 (fun k => BitVec.ofNat 32 (code fp32 0 (sumNum 0 [fp32.val (a k).toNat, (fp32.val (b k).toNat).negate]))) ∧
    gives (.fmul f) 0x42 (fun k => BitVec.ofNat 32 (code fp32 0 ((fp32.val (a k).toNat).mul (fp32.val (b k).toNat)))) ∧
    gives (.ffma f) 0x43 (fun k => BitVec.ofNat 32 (code fp32 0
      (sumNum 0 [(fp32.val (a k).toNat).mul (fp32.val (b k).toNat), fp32.val (old k).toNat]))) ∧
    gives (.fopRm f) 0x44 (fun k => BitVec.ofNat 32 (fp32.arith (x % 4) (x / 4) (a k).toNat (b k).toNat (old k).toNat)) ∧
    gives (.fmin f) 0x45 (fun k => if isNan32 (a k) && isNan32 (b k) then 0x7FC00000 else if isNan32 (a k) then b k
      else if isNan32 (b k) then a k else if order32 (a k) ≤ order32 (b k) then a k else b k) ∧
    gives (.fmax f) 0x46 (fun k => if isNan32 (a k) && isNan32 (b k) then 0x7FC00000 else if isNan32 (a k) then b k
      else if isNan32 (b k) then a k else if order32 (a k) ≤ order32 (b k) then b k else a k) ∧
    gives (.fabs f) 0x47 (fun k => a k &&& 0x7FFFFFFF) ∧
    gives (.fneg f) 0x48 (fun k => a k ^^^ 0x80000000) ∧
    gives (.hop2 f) 0x51 (fun k => halfwise ((fmt16 (f.x.getLsbD 2)).arith (x % 4) 0) (a k) (b k) (old k)) ∧
    gives (.hdot2 f) 0x52 (fun k =>
      let F := fmt16 (f.x.getLsbD 2)
      let half (w : Word) (i : Nat) : FpNum := F.val (w.toNat / 65536 ^ i % 65536)
      BitVec.ofNat 32 (code fp32 0 (sumNum 0 [(half (a k) 0).mul (half (b k) 0), (half (a k) 1).mul (half (b k) 1)]))) ∧
    gives (.cvtFI f) 0x53 (fun k => BitVec.ofNat 32 (code fp32 (x / 4) (intNum (f.x.getLsbD 0) (a k).toNat))) ∧
    gives (.cvtIF f) 0x54 (fun k => BitVec.ofNat 32 (satInt (f.x.getLsbD 0) (x / 4) (fp32.val (a k).toNat))) ∧
    gives (.cvtHF f) 0x55 (fun k =>
      let h : BitVec 16 := BitVec.ofNat 16 ((fmt16 (f.x.getLsbD 0)).sat (x / 4) (fp32.val (a k).toNat))
      if f.x.getLsbD 1 then h ++ (old k).extractLsb' 0 16 else (old k).extractLsb' 16 16 ++ h) ∧
    gives (.cvtFH f) 0x56 (fun k => BitVec.ofNat 32 (code fp32 0
      ((fmt16 (f.x.getLsbD 0)).val (if f.x.getLsbD 1 then (a k).toNat / 65536 else (a k).toNat % 65536)))) ∧
    gives (.cvtQF f) 0x57 (fun k =>
      let p := 8 * (x / 2 % 4)
      let q : Word := BitVec.ofNat 32 ((fmt8 (f.x.getLsbD 0)).sat 0 (fp32.val (a k).toNat))
      (old k &&& ~~~((0xFF : Word) <<< p)) ||| ((q &&& 0xFF) <<< p)) ∧
    gives (.cvtFQ f) 0x58 (fun k => BitVec.ofNat 32 (code fp32 0
      ((fmt8 (f.x.getLsbD 0)).val ((a k).toNat / 2 ^ (8 * (x / 2 % 4)) % 256)))) ∧
    gives (.packH2 f) 0x59 (fun k =>
      let h (w : Word) : BitVec 16 := BitVec.ofNat 16 ((fmt16 (f.x.getLsbD 0)).sat (x / 4) (fp32.val w.toNat))
      h (b k) ++ h (a k)) ∧
    gives (.zbdec f) 0x5C (fun k =>
      let zb4 := f.x.getLsbD 0
      BitVec.ofNat 32 (zbDecode zb4 ((a k).toNat % (if zb4 then 16 else 256)) ((b k).toNat % 256) ((b k).toNat / 256 % 256)))

/-- R91, R273: `rdsp` completes and writes the special value its selector names, whole in a lead thread and a stack core,
its low 32 bits in lanes and foragers; in lane code a whole write is tagged A for `$lane` and `$tid`, and U for the
others. `fstat` completes and writes the statistic its selector names to every lane of the group, tagged U by a whole
write. Nothing else is written. -/
def Obligations.SpecialValues : Prop :=
  ∀ (s : State) (st : Strand) (c : Cx) (f : Rrr), s.cx st.cx = some c →
    let h (op : Nat) : Hd := rrr op f
    let d := f.d.toNat
    let n := f.x.toNat
    let completes (i : Instr) (op : Nat) (st' : Strand) : Prop :=
      exec i s = .next (s.after st (h op) ⟨s.putStrand s.cur st', .reg d, [], false⟩)
    (s.Ready st (h 0x24) → ∃ st', completes (.rdsp f) 0x24 st' ∧
      (if st.ctx.wide = true then st.Wrote64 st' st.group d (fun k => named s st c n k)
       else st.Wrote32 st' st.group d (fun k => (named s st c n k).setWidth 32)) ∧
      (st.ctx = .L → st.group = st.wholeMask → (st'.vreg d).tag = if n ≤ 1 then 1 else 0)) ∧
    (s.Ready st (h 0xA3) → ∃ st', completes (.fstat f) 0xA3 st' ∧
      st.Wrote32 st' st.group d (fun _ => forages s st c n) ∧
      (st.ctx = .L → st.group = st.wholeMask → (st'.vreg d).tag = 0))

/-- R87: `vote` polls the live lanes it names; a lane whose own bit its mask does not hold traps with MASK_SELF. -/
def Obligations.VoteResult : Prop :=
  ∀ (s : State) (st : Strand) (f : Rrr),
    let h := rrr 0xB5 f
    let kind := f.x.toNat % 8
    let masked := f.x.getLsbD 3
    let bad := if masked then maskOf (fun k => inMask st.group k && !inMask (st.src k f.b) k) else 0
    let good := st.group &&& ~~~bad
    let polled (k : Nat) : Word := (if masked then st.src k f.b else st.group) &&& st.liveMask
    let yes (k : Nat) : Word := maskOf (fun j => inMask (polled k) j && st.pred j (f.a.toNat % 8))
    let u (st' : Strand) : State :=
      if bad = 0 then s.putStrand s.cur st' else (s.putStrand s.cur st').trapLanes s.cur bad 0x05 (s.iss st h).pc 4 0
    s.Ready st h →
      if kind < 3 then ∃ st', s.Does st (.vote f) h ⟨u st', .nothing, [], false⟩ ∧
        st.WrotePred st' good (f.d.toNat % 8) (fun k => match kind with
          | 0 => yes k != 0
          | 1 => yes k == polled k
          | _ => yes k == 0 || yes k == polled k)
      else ∃ st', s.Does st (.vote f) h ⟨u st', .reg f.d.toNat, [], false⟩ ∧
        st.Wrote32 st' good f.d.toNat (fun k => match kind with
          | 3 => yes k
          | 4 => BitVec.ofNat 32 (lanesOf (yes k)).length
          | _ => if yes k = 0 then 0xFFFFFFFF else BitVec.ofNat 32 (lowest (yes k)))

/-- R138, R139, R145: an SFU function takes a queue entry and captures its source in every lane whose guard is true;
with no such lane it performs nothing, and with the queue full, or behind a group of its core that stalled earlier, it
stalls. -/
def Obligations.SfuIssue : Prop :=
  ∀ (s : State) (st : Strand) (f : Rrr),
    let sfu (i : Instr) (op : Nat) : Prop := s.Ready st (rrr op f) →
      let g := (s.iss st (rrr op f)).g
      let waits := 16 ≤ s.sfuUse (s.homeUnit st) ∨ s.queuesBehind s.cur .sfu (fun t => s.homeUnit t == s.homeUnit st) = true
      (g = 0 ∨ ¬ waits →
        s.Issues s st i (rrr op f) ((lanesOf g).map (fun k => ⟨k, 0, (st.src k f.a).setWidth 128⟩)) 1 false (decide ((st.srcShape f.a).tag = 0))) ∧
      (g ≠ 0 → waits → exec i s = .next (s.setStall s.cur .sfu))
    sfu (.frcp f) 0x4A ∧ sfu (.frsq f) 0x4B ∧ sfu (.fsqrt f) 0x4C ∧ sfu (.fex2 f) 0x4D ∧ sfu (.flg2 f) 0x4E ∧
    sfu (.fsin f) 0x4F ∧ sfu (.fcos f) 0x50

/-- R65, R201 to R206, R213: a memory instruction issues in every lane whose guard is true, capturing the lane's pointer,
the data it stores and its thread's order, and takes a miss-buffer entry for each new page it misses, or stalls where its
core has none for it (R186). The writes it makes enter its threads' histories. A whole load through a U pointer outside
space 0x3 will leave its registers U (R202). Memory is as before. -/
def Obligations.MemoryIssue : Prop :=
  ∀ (s base : State) (st : Strand) (f : Rrr),
    let d := f.d.toNat
    let a := f.a.toNat
    let uniform (op : Nat) : Bool := (decide (op ≤ 0x86) || op == 0x8C || op == 0x8D) && st.ctx == .L &&
      (st.vreg a).tag == 0 && (st.vreg (a + 1)).tag == 0 && (st.pair (lowest (s.iss st (rrr op f)).g) a).toNat / 2 ^ 60 != 3
    let mem (i : Instr) (op : Nat) (w : Bool) (data : Nat → W128) (cnt : Nat) : Prop :=
      let h := rrr op f
      let caps := (lanesOf (s.iss st h).g).map (fun k => ⟨k, st.pair k f.a.toNat, data k⟩)
      s.Ready st h →
        (s.takeMisses (s.iss st h) w = some base → s.SameMemory base ∧
          s.Issues base st i h caps cnt false (uniform op) (ordsOf (s.iss st h) caps base.nextId)) ∧
        (s.takeMisses (s.iss st h) w = .none → exec i s = .next (s.setStall s.cur .miss))
    let none (_ : Nat) : W128 := 0
    let word (k : Nat) : W128 := (st.src k f.d).setWidth 128
    let pair (k : Nat) : W128 := (st.pair k d).setWidth 128
    let wide := f.b.toNat = 3
    let sized (k : Nat) : W128 := if wide then pair k else word k
    let two := if st.ctx.wide then 1 else 2
    let four := if st.ctx.wide then 2 else 4
    mem (.ldZ8 f) 0x80 false none 1 ∧ mem (.ldS8 f) 0x81 false none 1 ∧ mem (.ldZ16 f) 0x82 false none 1 ∧
    mem (.ldS16 f) 0x83 false none 1 ∧ mem (.ldB32 f) 0x84 false none 1 ∧ mem (.ldB64 f) 0x85 false none two ∧
    mem (.ldB128 f) 0x86 false none four ∧
    mem (.stB8 f) 0x87 true word 0 ∧ mem (.stB16 f) 0x88 true word 0 ∧ mem (.stB32 f) 0x89 true word 0 ∧
    mem (.stB64 f) 0x8A true pair 0 ∧ mem (.stB128 f) 0x8B true (fun k => st.quad k d) 0 ∧
    mem (.ldAcqB32 f) 0x8C false none 1 ∧ mem (.ldAcqB64 f) 0x8D false none two ∧
    mem (.stRelB32 f) 0x8E true word 0 ∧ mem (.stRelB64 f) 0x8F true pair 0 ∧
    (∀ p ∈ [(Instr.atomAdd f, 0x90), (.atomMinS f, 0x91), (.atomMaxS f, 0x92), (.atomAnd f, 0x93), (.atomOr f, 0x94),
        (.atomXor f, 0x95), (.atomXchg f, 0x96)], mem p.1 p.2 true sized (if wide then two else 1)) ∧
    mem (.atomCas f) 0x97 true (fun k => if wide then st.quad k d else pair k) (if wide then two else 1) ∧
    mem (.atomFadd f) 0x98 true word 1 ∧ mem (.atomBfadd2 f) 0x99 true word 1 ∧
    mem (.redAdd f) 0x9A true sized 0 ∧ mem (.redFadd f) 0x9B true word 0

/-- R207: `cache` issues in every lane whose guard is true, with a miss-buffer entry for each new page it misses, and stalls
where its core has none; for OP 2 to 4 a lane whose pointer has no such space, or a bit set that must be zero, traps with
ADDR_SPACE.
Model's own choices: notes/assumptions/19.md. -/
def Obligations.CacheIssue : Prop :=
  ∀ (s t : State) (st : Strand) (f : Rrr), let h := rrr 0x9C f
    s.Ready st h →
      let ptr (k : Nat) : W64 := st.pair k f.a.toNat
      let space (k : Nat) : Nat := (ptr k).toNat / 2 ^ 60
      let bad := maskOf (fun k => inMask (s.iss st h).g k && (decide (2 ≤ f.d.toNat) &&
        (decide (6 ≤ space k) || !spaceOk (space k) st.ctx || !spaceZeros (space k) (ptr k).toNat)))
      let x : Iss := { s.iss st h with g := (s.iss st h).g &&& ~~~bad }
      let base := if bad = 0 then t else t.trapLanes s.cur bad 0x07 (s.iss st h).pc 4 0
      (s.takeMisses x false = some t → s.SameMemory base ∧
        s.Issues base st (.cache f) h ((lanesOf x.g).map (fun k => ⟨k, ptr k, 0⟩)) 0 false false) ∧
      (s.takeMisses x false = none → exec (.cache f) s = .next (s.setStall s.cur .miss))

/-- R65, R145: a returned SFU lane writes its function of what it captured, and nothing else of the strand's registers
or of memory changes before the strand settles; a whole write whose source is U leaves its register U (R95, R101).
R145, R146: the function's special cases, and its results that are exact.
Model's own choices: notes/assumptions/21, 62.md. -/
def Obligations.SfuLands : Prop :=
  (∀ (s : State) (i : Nat) (st : Strand) (p : Pend) (c : Cap) (ext : W128) (err : Byte),
    s.Pending i st p → 0x4A ≤ p.op → p.op ≤ 0x50 → p.cnt = 1 → p.dst < 56 → st.ctx = .L → st.vregs.length = 56 →
    let left (m : Word) (u : State) (st' : Strand) : Prop :=
      exec (.classLResultLand i p.id (maskOf (· == c.lane)) ext err) s = .next (u.settle i) ∧ s.SameMemory u ∧ u.strand i = some st' ∧
      (∀ q ∈ st'.pends, q.id = p.id → ∀ d ∈ q.caps, inMask m d.lane = false) ∧
      (∀ n, n ≠ p.dst → st'.vreg n = st.vreg n) ∧ st'.lanes = st.lanes ∧ st'.sregs = st.sregs
    let r := sfuOp p.op (c.data.setWidth 32)
    ((p.whole && p.tagU) = false → c ∈ p.caps → c.lane < 32 → (st.lane c.lane).st ≠ .never →
      p.caps.filter (fun d => decide (d.lane = c.lane)) = [c] →
      ∃ (u : State) (st' : Strand), left (maskOf (· == c.lane)) u st' ∧ st'.reg32 c.lane p.dst = r ∧ (st'.vreg p.dst).tag = 2 ∧
        ∀ k < 32, k ≠ c.lane → st'.reg32 k p.dst = st.reg32 k p.dst) ∧
    ((p.whole && p.tagU) = true → p.caps.head? = some c → p.mask ≠ 0 →
      ∃ (u : State) (st' : Strand), left p.mask u st' ∧ st'.vreg p.dst = .u r)) ∧
  (∀ (op : Nat) (a v : Word), 0x4A ≤ op → op ≤ 0x50 → special op a = some v → sfuOp op a = v) ∧
  (∀ (a : Word) (m : Nat) (e : Int), fp32.val a.toNat = .fin false m e → m ≠ 0 →
    let n := m * 2 ^ (60 + (e % 2).toNat)
    ∀ r, r * r ≤ n → n < (r + 1) * (r + 1) →
      sfuOp 0x4C a = BitVec.ofNat 32 (fp32.round 0 (.fin false r ((e - e % 2 - 60) / 2)) (decide (r * r < n)))) ∧
  (∀ n : Int, -149 ≤ n → n ≤ 127 →
    let power : Word := BitVec.ofNat 32 (fp32.round 0 (.fin false 1 n))
    let number : Word := BitVec.ofNat 32 (fp32.round 0 (.fin (decide (n < 0)) n.natAbs 0))
    sfuOp 0x4D number = power ∧ sfuOp 0x4E power = number)

/-- R201, R202, R205, R210, R216: what returns to a lane. An ordinary load writes the bytes its thread's view holds at the
place its pointer names, extended as its opcode says; 16 bytes of host or own-device space-0x4 memory are read as two
halves, the lower first (R203). A whole load through a U pointer reads once for all its lanes and leaves its registers U.
`ld.acq` and the atomics read the home's latest value; an atomic leaves R205's new value there and changes no other byte.
From a peer a lane takes what the peer answers.
Model's own choices: notes/assumptions/16.md. -/
def Obligations.LoadLands : Prop :=
  ∀ (s s1 : State) (i : Nat) (st : Strand) (p : Pend) (c : Cap) (ext : W128) (err : Byte) (q : W64) (loc fn : Nat) (path : Path),
    let n := accSize p.op p.f
    let one := maskOf (· == c.lane)
    let whole := p.whole && p.tagU
    let m := if whole then maskOf (fun k => p.caps.any (·.lane == k)) else one
    let ordered : Prop := if whole then p.caps.head? = some c ∧ p.caps.all (s.orderOk st { p with caps := [] }) = true
      else s.orderOk st p c = true
    let shared := !whole && !(s.sharers st p c).isEmpty
    let half := (p.ord c.lane).half
    let lands (v : Nat) (Q : State → Prop) : Prop :=
      ∃ (u : State) (st' : Strand), exec (.classLResultLand i p.id one ext err) s = .next (u.settle i) ∧ Q u ∧
        u.strand i = some st' ∧ Left st' p m ∧ Filled st st' p m (extended p.op v)
    let view (s2 u : State) : Prop := u.mem = s1.mem ∧ u.inflight = s1.inflight ∧ u.applied = s2.applied
    let load := p.op ∈ [0x80, 0x81, 0x82, 0x83, 0x84, 0x85, 0x86]
    let acquire := p.op ∈ [0x8C, 0x8D]
    let atomic := 0x90 ≤ p.op ∧ p.op ≤ 0x99 ∧ whole = false
    (Reaches s s1 i st p c q (.place loc path fn) → s1.homeHeld loc = false → ordered → s1.homeRefuses fn loc n (isAtom p.op) = none →
      (∀ s2 v, load → halved path loc n = false → Reads s1 s2 i st p c shared path loc n v → lands v (view s2)) ∧
      (∀ s2 v, load → halved path loc n = true → half = none → (∃ o ∈ p.ords, o.lane = c.lane) → Reads s1 s2 i st p c shared path loc 8 v →
        ∃ (u : State) (st' : Strand), exec (.classLResultLand i p.id one ext err) s = .next (u.settle i) ∧ view s2 u ∧ u.strand i = some st' ∧
          st'.vregs = st.vregs ∧ st'.sregs = st.sregs ∧ ∃ p' ∈ st'.pends, p'.id = p.id ∧ p'.caps = p.caps ∧ (p'.ord c.lane).half = some v) ∧
      (∀ s2 v lo, load → halved path loc n = true → half = some lo → Reads s1 s2 i st p c shared path (loc + 8) 8 v →
        lands (lo + 2 ^ 64 * v) (view s2)) ∧
      (acquire → Free s1 i st p c path loc n → lands (leNat (s1.homeRead loc n)) (fun u => s1.SameMemory u)) ∧
      (atomic → Free s1 i st p c path loc n → isPeer loc = false → (∀ w ∈ s1.inflight, w.id ≠ (p.ord c.lane).wid) →
        let t := leNat (s1.homeRead loc n)
        let d := c.data.toNat
        lands t (fun u => u.inflight = s1.inflight ∧
          u.homeRead loc n = toLE n (combined p.op (8 * n) t (d % 2 ^ (8 * n)) (d / 2 ^ (8 * n) % 2 ^ (8 * n))) ∧
          ∀ a, a < loc ∨ loc + n ≤ a → u.homeRead a 1 = s1.homeRead a 1))) ∧
    (∀ dev off, Reaches s s1 i st p c q (.peer dev off) → ordered → (load ∨ acquire ∨ atomic ∧ s1.linkFree dev 16 = true) → err = 0 →
      (∀ w ∈ s1.inflight, w.overlaps (peerLoc dev off) n = true → (w.strand, w.lane) ≠ st.thread i c.lane) →
      lands (ext.toNat % 2 ^ (8 * n)) (fun u => s1.SameMemory u))

/-- R195, R201, R206, R213, R214: a returned store or reduction lane leaves one write in flight, with the place its pointer
names, its bytes, the history its thread released at issue and, for `st.rel`, the work it waits for; 16 bytes of host or
own-device space-0x4 memory leave as two writes, the lower first (R203). A store to a peer leaves for the peer's window. No
byte of memory has changed yet.
Model's own choices: notes/assumptions/16.md. -/
def Obligations.StoreLeaves : Prop :=
  ∀ (s s1 : State) (i : Nat) (st : Strand) (p : Pend) (c : Cap) (ext : W128) (err : Byte) (q : W64),
    p.op ∈ [0x87, 0x88, 0x89, 0x8A, 0x8B, 0x8E, 0x8F, 0x9A, 0x9B] → (p.whole && p.tagU) = false → s.orderOk st p c = true →
    let n := accSize p.op p.f
    let data := toLE n c.data.toNat
    let leaves (loc : Nat) (path : Path) (fn : Nat) : Prop :=
      ∃ (u : State) (ws : List Wr) (st' : Strand), exec (.classLResultLand i p.id (maskOf (· == c.lane)) ext err) s = .next (u.settle i) ∧
        u.mem = s1.mem ∧ u.applied = s1.applied ∧ u.inflight = s1.inflight ++ ws ∧
        (∀ w ∈ ws, w.path = path ∧ w.fn = s1.fnOf st ∧ w.owner = (if fn = s1.fnOf st then none else some fn) ∧
          (w.strand, w.lane) = st.thread i c.lane ∧ w.src = i ∧ w.cmd = some p.seq ∧ w.carry = (p.ord c.lane).carry ∧
          w.op = (if p.op = 0x9A then .add n else if p.op = 0x9B then .fadd else .store) ∧
          w.strong = isRel p.op ∧ w.wait = (if isRel p.op then p.f.b else 0)) ∧
        ws.map (fun w => (w.id, w.loc, w.ptr, w.data)) = (if halved path loc n
          then [((p.ord c.lane).wid, loc, q, data.take 8), ((p.ord c.lane).wid + 1, loc + 8, q + 8, data.drop 8)]
          else [((p.ord c.lane).wid, loc, q, data)]) ∧
        u.strand i = some st' ∧ Left st' p (maskOf (· == c.lane)) ∧ st'.vregs = st.vregs ∧ st'.sregs = st.sregs
    (∀ loc fn path, Reaches s s1 i st p c q (.place loc path fn) → s1.homeHeld loc = false → leaves loc path fn) ∧
    (∀ dev off, Reaches s s1 i st p c q (.peer dev off) →
      (∀ w ∈ s1.inflight, w.overlaps (peerLoc dev off) n = true → (w.strand, w.lane) ≠ st.thread i c.lane) →
      leaves (peerLoc dev off) .peer (s1.fnOf st))

/-- R175, R70: a lane whose access stops is given a fault record with the access's code, its own address, the address the
access named and the data it stores; it returns nothing and writes nothing. -/
def Obligations.AccessFaults : Prop :=
  ∀ (s s1 : State) (i : Nat) (st : Strand) (p : Pend) (c : Cap) (ext : W128) (err : Byte) (q : W64) (x : Stop),
    0x80 ≤ p.op → p.op ≤ 0x9B → p.trailed = false → (p.whole && p.tagU) = false → s.orderOk st p c = true →
    (Reaches s s1 i st p c q (.stop x) ∨
      p.op ∉ [0x87, 0x88, 0x89, 0x8A, 0x8B, 0x8E, 0x8F, 0x9A, 0x9B] ∧ Reaches s s1 i st p c q (.refused x)) →
    ∃ (u : State) (st' : Strand) (r : FaultRec), exec (.classLResultLand i p.id (maskOf (· == c.lane)) ext err) s = .next (u.settle i) ∧
      s1.SameMemory u ∧ u.strand i = some st' ∧ Left st' p (maskOf (· == c.lane)) ∧
      (st'.lane c.lane).flts = (st.lane c.lane).flts ++ [r] ∧ r.code = x.code ∧ r.recov = x.recov ∧ r.pc = p.pc ∧ r.addr = q ∧
      r.data = (if p.op ≤ 0x86 ∨ p.op = 0x8C ∨ p.op = 0x8D then 0 else c.data) ∧ st'.vregs = st.vregs ∧ st'.sregs = st.sregs

/-- R160, R162, R164 to R166, R168: the limb instructions, chain by chain, in a bound warp whose chains are whole and
none of which `.t` traps. -/
def Obligations.LimbResults : Prop :=
  ∀ (s : State) (st : Strand) (f : Rrr) (n : Nat), Bound st n →
    let W := 32 * n
    let A (c : Nat) : Nat := chain (fun k => st.src k f.a) n c
    let B (c : Nat) : Nat := chain (fun k => st.src k f.b) n c
    let D (c : Nat) : Nat := chain (fun k => st.reg32 k f.d.toNat) n c
    let lim0 (c : Nat) : Nat := (st.src (c * n) f.b).toNat
    let cin (c : Nat) : Nat := if f.x.getLsbD 0 && st.lcr.carry.getLsbD c then 1 else 0
    let kept (c : Nat) : Word := st.lcr.spill.getD c 0
    let word (v : Nat) : Word := BitVec.ofNat 32 v
    let t := f.x.getLsbD 1
    let limb (i : Instr) (op : Nat) (trap : Nat → Bool) (r : Nat → Chained) : Prop :=
      s.Ready st (rrr op f) → (∀ c < 32 / n, performs st.group n c → trap c = false) →
        ∃ st', s.Does st i (rrr op f) ⟨s.putStrand s.cur st', .reg f.d.toNat, [], false⟩ ∧ Strand.Chains st st' n f.d.toNat r
    let never (_ : Nat) : Bool := false
    let shift (_ : Nat) (x : Int) (out : Nat) : Chained := ⟨x, word out != 0, false, word out⟩
    limb (.ladd f) 0x72 (fun c => t && decide (2 ^ W ≤ A c + B c + cin c)) (fun c =>
      ⟨A c + B c + cin c, decide (2 ^ W ≤ A c + B c + cin c), outside n (signedChain n (A c) + signedChain n (B c) + cin c), kept c⟩) ∧
    limb (.lsub f) 0x73 (fun c => t && decide (A c < B c + cin c)) (fun c =>
      ⟨(A c : Int) - B c - cin c, decide (A c < B c + cin c), outside n (signedChain n (A c) - signedChain n (B c) - cin c), kept c⟩) ∧
    limb (.lneg f) 0x74 (fun c => t && decide (A c = 2 ^ (W - 1))) (fun c =>
      ⟨-(A c : Int), decide (A c ≠ 0), decide (A c = 2 ^ (W - 1)), kept c⟩) ∧
    limb (.lmad f) 0x79 (fun c => t && decide (2 ^ W ≤ A c * lim0 c + D c)) (fun c =>
      ⟨A c * lim0 c + D c, decide (2 ^ W ≤ A c * lim0 c + D c), false, word ((A c * lim0 c + D c) / 2 ^ W)⟩) ∧
    limb (.lshl f) 0x75 never (fun c => shift c (A c * 2 ^ (lim0 c % 32)) (A c * 2 ^ (lim0 c % 32) / 2 ^ W)) ∧
    limb (.lshrU f) 0x76 never (fun c => shift c (A c / 2 ^ (lim0 c % 32)) (A c % 2 ^ (lim0 c % 32) * 2 ^ (32 - lim0 c % 32))) ∧
    limb (.lshrS f) 0x77 never (fun c => shift c (signedChain n (A c) / 2 ^ (lim0 c % 32)) (A c % 2 ^ (lim0 c % 32) * 2 ^ (32 - lim0 c % 32)))

/-- R158, R166 to R169, R157: in a bound warp `lrot` moves whole limbs, `lcmp` compares whole chains, `lspill` reads,
clears and writes the spill slots and `lstat` reads and sets the flags; `lbind` binds a whole warp and `lfree` unbinds it. -/
def Obligations.LimbMoves : Prop :=
  ∀ (s : State) (st : Strand) (f : Rrr),
    (∀ n, Bound st n → st.ctx = .L →
      (s.Ready st (rrr 0x78 f) → ∃ st', s.Does st (.lrot f) (rrr 0x78 f) ⟨s.putStrand s.cur st', .reg f.d.toNat, [], false⟩ ∧
        st.Wrote32 st' st.group f.d.toNat (fun k =>
                  let r := (st.src (k / n * n) f.b).toNat % 32 % n
          st.src (k / n * n + (k % n + n - r) % n) f.a)) ∧
      (s.Ready st (rrr 0x7B f) → ∃ st', s.Does st (.lcmp f) (rrr 0x7B f) ⟨s.putStrand s.cur st', .nothing, [], false⟩ ∧
        st.WrotePred st' st.group (f.d.toNat % 8) (fun k =>
          holds (n := 32 * n) f.x (BitVec.ofNat _ (chain (fun j => st.src j f.a) n (k / n))) (BitVec.ofNat _ (chain (fun j => st.src j f.b) n (k / n))))) ∧
      (s.Ready st (rrr 0x7A f) → f.x ≠ 2 → ∃ st' mid, s.Does st (.lspill f) (rrr 0x7A f) ⟨s.putStrand s.cur st', .reg f.d.toNat, [], false⟩ ∧
        st.Wrote32 mid st.group f.d.toNat (fun k => st.lcr.spill.getD (k / n) 0) ∧ st' = { mid with lcr := st'.lcr } ∧
        st'.lcr = { st.lcr with spill := st'.lcr.spill } ∧
        ∀ c < 32 / n, st'.lcr.spill.getD c 0 =
          if f.x = 1 ∧ inMask st.group (c * n) = true then 0 else st.lcr.spill.getD c 0) ∧
      (s.Ready st (rrr 0x7A f) → f.x = 2 → ∃ st', s.Does st (.lspill f) (rrr 0x7A f) ⟨s.putStrand s.cur st', .nothing, [], false⟩ ∧
        st' = { st with lcr := { st.lcr with spill := st'.lcr.spill } } ∧
        ∀ c < 32 / n, st'.lcr.spill.getD c 0 = if inMask st.group (c * n) = true then st.src (c * n) f.a else st.lcr.spill.getD c 0) ∧
      (s.Ready st (rrr 0x7E f) → f.x.getLsbD 0 = true →
        ∃ st' d, s.Does st (.lstat f) (rrr 0x7E f) ⟨s.putStrand s.cur st', d, [], false⟩ ∧
        st' = { st with lcr := { st.lcr with carry := st'.lcr.carry, ovf := st'.lcr.ovf } } ∧
        ∀ c < 32 / n, inMask st.group (c * n) = true →
          st'.lcr.carry.getLsbD c = (st.src (c * n) f.a).getLsbD 4 ∧ st'.lcr.ovf.getLsbD c = (st.src (c * n) f.a).getLsbD 5)) ∧
    (s.Ready st (rrr 0x7E f) → f.x.getLsbD 0 = false →
      ∃ st', s.Does st (.lstat f) (rrr 0x7E f) ⟨s.putStrand s.cur st', .reg f.d.toNat, [], false⟩ ∧
      st.Wrote32 st' st.group f.d.toNat (fun k =>
        let n := 2 ^ st.lcr.log2n.toNat
        if st.lcr.log2n = 0 then 0 else
          BitVec.ofNat 32 (k / n * 65536 + k % n * 256 + (st.lcr.ovf.getLsbD (k / n)).toNat * 32 + (st.lcr.carry.getLsbD (k / n)).toNat * 16 +
            st.lcr.log2n.toNat))) ∧
    (s.Ready st (rrr 0x70 f) → (s.hdrOf st).limbs = true → st.group = 0xFFFFFFFF →
      (∀ k < 32, (st.lane k).st ≠ .away) →
      s.Does st (.lbind f) (rrr 0x70 f)
        ⟨s.putStrand s.cur { st with lcr := ⟨BitVec.ofNat 3 f.x.toNat, 0, 0, List.replicate 16 0⟩ }, .nothing, [], false⟩) ∧
    (s.Ready st (rrr 0x71 f) →
      s.Does st (.lfree f) (rrr 0x71 f) ⟨s.putStrand s.cur { st with lcr := ⟨0, 0, 0, List.replicate 16 0⟩ }, .nothing, [], false⟩)

/-- R160, R164: in an unbound warp a limb instruction traps with LIMB_BIND in every lane of the group, whichever it
is. In a bound warp the lanes of a chain that is only partly in the group trap with LIMB_DIVERGE, and nothing of that chain
is written; a chain whose `.t` condition holds traps with LIMB_OVF and keeps its register, flags and spill slot, while the
others perform. R157: `lbind` traps with LIMB_BIND where the header's LIMBS is 0, a lane is never launched, exited, away or
parked by a fault, or the group is not the whole warp. -/
def Obligations.LimbTraps : Prop :=
  ∀ (s : State) (st : Strand) (f : Rrr),
    let arith := [(Instr.ladd f, 0x72), (.lsub f, 0x73), (.lneg f, 0x74), (.lshl f, 0x75), (.lshrU f, 0x76), (.lshrS f, 0x77),
        (.lrot f, 0x78), (.lmad f, 0x79), (.lspill f, 0x7A), (.lcmp f, 0x7B)]
    let stray (i : Instr) (op n : Nat) : Prop :=
      ∃ (u : State) (d : Dst) (st' : Strand), s.Does st i (rrr op f) ⟨u, d, [], false⟩ ∧ u.strand s.cur = some st' ∧ s.SameMemory u ∧
        ∀ k < 32, inMask st.group k = true → ¬ performs st.group n (k / n) →
          (st'.lane k).st = .fault ∧ ((st'.lane k).flts.getLast?.map FaultRec.code) = some 0x11 ∧
          (st'.lane k).preds = (st.lane k).preds ∧ ∀ r < 56, st'.reg32 k r = st.reg32 k r
    (∀ p ∈ arith ++ [(Instr.lld f, 0x7C), (.lst f, 0x7D)], s.Ready st (rrr p.2 f) → st.lcr.log2n = 0 →
      s.Does st p.1 (rrr p.2 f) ⟨s.trapLanes s.cur st.group 0x10 (s.iss st (rrr p.2 f)).pc 4 0, .nothing, [], false⟩) ∧
    (s.Ready st (rrr 0x7E f) → st.lcr.log2n = 0 → f.x.getLsbD 0 = true →
      s.Does st (.lstat f) (rrr 0x7E f) ⟨s.trapLanes s.cur st.group 0x10 (s.iss st (rrr 0x7E f)).pc 4 0, .nothing, [], false⟩) ∧
    (∀ n, Chains st n →
      (∀ p ∈ arith, s.Ready st (rrr p.2 f) → stray p.1 p.2 n) ∧
      (s.Ready st (rrr 0x7E f) → f.x.getLsbD 0 = true → stray (.lstat f) 0x7E n) ∧
      (∀ p ∈ [(Instr.lld f, 0x7C, false), (.lst f, 0x7D, true)], s.Ready st (rrr p.2.1 f) →
        let heads := maskOf (fun k => k % n == 0 && decide (performs st.group n (k / n)))
        (s.takeMisses { s.iss st (rrr p.2.1 f) with g := heads } p.2.2).isSome → stray p.1 p.2.1 n)) ∧
    (∀ n, Bound st n →
      let W := 32 * n
      let A (c : Nat) : Nat := chain (fun j => st.src j f.a) n c
      let B (c : Nat) : Nat := chain (fun j => st.src j f.b) n c
      let D (c : Nat) : Nat := chain (fun j => st.reg32 j f.d.toNat) n c
      let m (c : Nat) : Nat := (st.src (c * n) f.b).toNat
      let cin (c : Nat) : Nat := if f.x.getLsbD 0 && st.lcr.carry.getLsbD c then 1 else 0
      let overflows (i : Instr) (op : Nat) (bad : Nat → Prop) (x : Nat → Int) : Prop := s.Ready st (rrr op f) → f.x.getLsbD 1 = true →
        ∃ u st', s.Does st i (rrr op f) ⟨u, .reg f.d.toNat, [], false⟩ ∧ u.strand s.cur = some st' ∧ s.SameMemory u ∧
          ∀ k < 32, inMask st.group k = true →
            (bad (k / n) → (st'.lane k).st = .fault ∧ ((st'.lane k).flts.getLast?.map FaultRec.code) = some 0x12 ∧
              st'.reg32 k f.d.toNat = st.reg32 k f.d.toNat ∧ st'.lcr.carry.getLsbD (k / n) = st.lcr.carry.getLsbD (k / n) ∧
              st'.lcr.ovf.getLsbD (k / n) = st.lcr.ovf.getLsbD (k / n) ∧ st'.lcr.spill.getD (k / n) 0 = st.lcr.spill.getD (k / n) 0) ∧
            (¬ bad (k / n) → (st'.lane k).st = .ready ∧ st'.reg32 k f.d.toNat = BitVec.ofInt 32 (x (k / n) / 2 ^ (32 * (k % n))))
      overflows (.ladd f) 0x72 (fun c => 2 ^ W ≤ A c + B c + cin c) (fun c => A c + B c + cin c) ∧
      overflows (.lsub f) 0x73 (fun c => A c < B c + cin c) (fun c => (A c : Int) - B c - cin c) ∧
      overflows (.lneg f) 0x74 (fun c => A c = 2 ^ (W - 1)) (fun c => -(A c : Int)) ∧
      overflows (.lmad f) 0x79 (fun c => 2 ^ W ≤ A c * m c + D c) (fun c => A c * m c + D c)) ∧
    (s.Ready st (rrr 0x70 f) →
      ((s.hdrOf st).limbs = false ∨ st.group ≠ 0xFFFFFFFF ∨ ∃ k < 32, (st.lane k).st ∈ [LaneSt.never, .exited, .away, .fault]) →
      s.Does st (.lbind f) (rrr 0x70 f) ⟨s.trapLanes s.cur st.group 0x10 (s.iss st (rrr 0x70 f)).pc 4 0, .nothing, [], false⟩)

/-- R170, R171: `lld` and `lst` issue one access of 4N bytes for each chain, at the pointer its limb-0 lane holds, with a
miss-buffer entry for each new page they miss, and stall where their core has none. An `lst` chain whose limbs all pass their
checks leaves one write of 4 bytes for each limb, in limb order. An `lld` chain's limbs are read one by one, and its lanes'
registers are written once all are there; a limb that stops is the chain's one fault, with the limb in its record, and nothing
of the chain is written. -/
def Obligations.LimbMemoryIssue : Prop :=
  (∀ (s base : State) (st : Strand) (f : Rrr) (n : Nat), Bound st n →
    let lane (i : Instr) (op : Nat) (w : Bool) (data : Nat → W128) (cnt : Nat) : Prop :=
      let caps : List Cap := (lanesOf st.group).map (fun k => ⟨k, st.pair (k / n * n) f.a.toNat, data k⟩)
      let heads : Iss := { s.iss st (rrr op f) with g := maskOf (fun k => inMask st.group k && k % n == 0) }
      let ords := ordsOf (s.iss st (rrr op f)) caps base.nextId
      s.Ready st (rrr op f) →
      (s.takeMisses heads w = none → exec i s = .next (s.setStall s.cur .miss)) ∧
      (s.takeMisses heads w = some base →
        ∃ p : Pend, p.id = base.nextId ∧ p.op = op ∧ p.f = { f with x := BitVec.ofNat 4 st.lcr.log2n.toNat } ∧
          p.caps = caps ∧ p.dst = f.d.toNat ∧ p.cnt = cnt ∧ p.tagU = false ∧ p.trailed = false ∧ p.seq = p.id ∧ p.ords = ords ∧ s.SameMemory base ∧
          s.Does st i (rrr op f) ⟨({ base with nextId := base.nextId + 1 + 2 * ords.length }.updStrand s.cur
              (fun t => { t with pends := t.pends ++ [p] })).issued s.cur p.id,
            if cnt = 0 then .nothing else .pend f.d.toNat p.id, [], false⟩)
    lane (.lld f) 0x7C false (fun _ => 0) 1 ∧ lane (.lst f) 0x7D true (fun k => (st.reg32 k f.d.toNat).setWidth 128) 0) ∧
  ∀ (s : State) (i : Nat) (st : Strand) (p : Pend) (ch : Nat) (ext : W128) (err : Byte),
    let n := 2 ^ p.f.x.toNat
    let cs := p.caps.filter (fun c => c.lane / n == ch)
    let m := maskOf (fun k => cs.any (·.lane == k))
    let landing := exec (.classLResultLand i p.id (maskOf (· == ch * n)) ext err) s
    s.Pending i st p → st.ctx = .L → p.f.x.toNat ≤ 5 → ch * n < 32 → cs ≠ [] → p.trailed = false → p.tagU = false →
    (∀ c ∈ cs, s.orderOk st { p with caps := p.caps.filter (fun c => c.lane / n != ch) } c = true) →
    (p.op = 0x7D → p.cnt = 0 → (s.die (dieOfUnit (s.unitOf st))).misses = [] → ∀ (q : Cap → W64) (loc : Cap → Nat) (path : Path) (fn : Nat),
      (∀ t : State, t = { s with inflight := t.inflight, strands := t.strands } → ∀ c ∈ cs,
        t.resolve st (p.addrLane c.lane) c.ptr (accOff p.op p.f + p.limbOff c.lane) 4 { w := true, who := some (2 * p.id) } false =
          (t, q c, .place (loc c) path fn)) → (∀ c ∈ cs, s.homeHeld (loc c) = false) →
      ∃ (u : State) (ws : List Wr) (st' : Strand), landing = .next (u.settle i) ∧ u.mem = s.mem ∧ u.applied = s.applied ∧ u.inflight = s.inflight ++ ws ∧
        ws.map (fun w => (w.id, w.loc, w.ptr, w.data, w.detail)) = cs.map (fun c => ((p.ord c.lane).wid, loc c, q c, toLE 4 c.data.toNat,
          c.lane % n * 2 ^ 16 + c.lane / n * 2 ^ 24)) ∧
        (∀ w ∈ ws, w.path = path ∧ w.op = .store ∧ w.strong = false ∧ (w.strand, w.lane).1 = (st.thread i w.lane).1) ∧
        u.strand i = some st' ∧ Left st' p m ∧ st'.vregs = st.vregs) ∧
    (∀ (s1 : State) (c : Cap) (q : W64), p.op = 0x7C → cs.find? (fun c => (p.ord c.lane).half.isNone) = some c →
      (∀ (s2 : State) (loc fn v : Nat) (path : Path), Reaches s s1 i st p c q (.place loc path fn) → s1.homeHeld loc = false →
        s1.homeRefuses fn loc 4 false = none → Reads s1 s2 i st p c false path loc 4 v →
        ∃ (u : State) (st' : Strand), landing = .next (u.settle i) ∧ u.mem = s1.mem ∧ u.inflight = s1.inflight ∧ u.applied = s2.applied ∧
          u.strand i = some st' ∧ (∀ r, r ≠ p.dst → st'.vreg r = st.vreg r) ∧
          ((∃ e ∈ cs, e.lane ≠ c.lane ∧ (p.ord e.lane).half = none) → (∃ o ∈ p.ords, o.lane = c.lane) → st'.vregs = st.vregs ∧
            ∃ p' ∈ st'.pends, p'.id = p.id ∧ p'.caps = p.caps ∧ (p'.ord c.lane).half = some v) ∧
          ((∀ e ∈ cs, e.lane ≠ c.lane → (p.ord e.lane).half.isSome) → Left st' p m ∧
            ∀ e ∈ cs, e.lane < 32 → (st.lane e.lane).st ≠ .never →
              st'.reg32 e.lane p.dst = BitVec.ofNat 32 (if e.lane = c.lane then v else (p.ord e.lane).half.getD 0))) ∧
      (∀ x : Stop, Reaches s s1 i st p c q (.stop x) →
        ∃ (u : State) (st' : Strand) (r : FaultRec), landing = .next (u.settle i) ∧ s1.SameMemory u ∧ u.strand i = some st' ∧ Left st' p m ∧
          st'.vregs = st.vregs ∧ (st'.lane c.lane).flts = (st.lane c.lane).flts ++ [r] ∧
          (∀ k, k ≠ c.lane → (st'.lane k).flts = (st.lane k).flts) ∧ r.code = x.code ∧ r.addr = q ∧ r.lane = (st.fg.map Forager.lane).getD c.lane ∧
          r.detail = BitVec.ofNat 32 (x.detail + (c.lane % n * 2 ^ 16 + c.lane / n * 2 ^ 24)) ∧ r.chain = n))

/-- R219, R220, R214: a fence whose lanes' earlier work on its paths is done adds the history on those paths to what the
lanes' later reads must see and its paths to what their later writes release, and a load that is still pending acquires for
what follows the fence; otherwise its group waits. An `xfence` waits until the writes on its first path in its lanes' histories
are applied, and makes them visible on its second. FENCE_WAIT_END lets a waiting strand try again.
Model's own choices: notes/assumptions/16.md. -/
def Obligations.FenceResults : Prop :=
  ∀ (s : State) (st : Strand) (f : Rrr),
    (s.Ready st (rrr 0x9D f) →
      let own := if f.b.getLsbD 3 = true ∧ st.ctx = .S then ((tget s.insts st.cx).map Inst.wids).getD [] else []
      ((∀ k < 32, inMask (s.iss st (rrr 0x9D f)).g k = true → s.workDone s.cur k f.b s.nextId = true) →
        ∃ st', s.Does st (.fence f) (rrr 0x9D f) ⟨s.putStrand s.cur st', .nothing, [], false⟩ ∧
          st' = { st with lanes := st'.lanes, pends := st'.pends } ∧ st'.lanes.length = st.lanes.length ∧
          st'.pends = st.pends.map (fun p => { p with ords := p.ords.map (fun o =>
            if inMask (s.iss st (rrr 0x9D f)).g o.lane && (isLoad p.op || isAcq p.op || isAtom p.op) then
              { o with acqs := o.acqs ++ [(s.nextId, f.b)] } else o) }) ∧
          ∀ k < st.lanes.length, st'.lane k = if inMask (s.iss st (rrr 0x9D f)).g k = true then
            { st.lane k with ord := { (st.lane k).ord with
                hist := addWrites (st.lane k).ord.hist own
                must := addWrites (st.lane k).ord.must (onPaths (addWrites (st.lane k).ord.hist own) f.b)
                rel := (st.lane k).ord.rel ||| f.b } }
            else st.lane k) ∧
      ((∃ k < 32, inMask (s.iss st (rrr 0x9D f)).g k = true ∧ s.workDone s.cur k f.b s.nextId = false) →
        exec (.fence f) s = .next (s.setStall s.cur .fence))) ∧
    (let waits := s.unapplied (fun id => (lanesOf st.group).any (fun k => (st.lane k).ord.hist.contains (id, pathOf f.d.toNat)))
     s.Ready st (rrr 0x9E f) → waits = true → exec (.xfence f) s = .next (s.setStall s.cur .fence)) ∧
    (let waits := s.unapplied (fun id => (lanesOf st.group).any (fun k => (st.lane k).ord.hist.contains (id, pathOf f.d.toNat)))
     s.Ready st (rrr 0x9E f) → waits = false →
      let c1 := pathOf f.d.toNat
      let c2 := pathOf f.a.toNat
      let die := dieOfUnit (s.unitOf st)
      ∃ (t : State) (st' : Strand), s.Does st (.xfence f) (rrr 0x9E f) ⟨t.putStrand s.cur st', .nothing, [], false⟩ ∧
        t.mem = s.mem ∧ t.strands = s.strands ∧ t.applied.length = s.applied.length ∧
        (∀ (n : Nat) (w : Wr), s.applied[n]? = some w → ∃ v : Wr, t.applied[n]? = some v ∧ v = { w with vis := v.vis } ∧
          ((∃ k < 32, inMask st.group k = true ∧ (w.id, c1) ∈ (st.lane k).ord.hist) → (c2, die) ∈ v.vis) ∧
          ∀ o ∈ w.vis, o ∈ v.vis) ∧
        ∀ k < 32, inMask st.group k = true → ∀ w ∈ s.applied, (∃ j < 32, inMask st.group j = true ∧ (w.id, c1) ∈ (st.lane j).ord.hist) →
          (w.id, c2) ∈ (st'.lane k).ord.hist ∧ (w.id, c2) ∈ (st'.lane k).ord.must) ∧
    (∀ i, s.strand i = some st → st.stall = some .fence →
      exec (.fenceWaitEnd i) s = .next (s.putStrand i { st with stall := none }))

/-- R64, R77, R81: a branch or call takes its guard-true lanes to their targets, and a call leaves the address after it in
the link register; the other lanes fall through. Where the lanes' guards or targets differ the run ends, and in a
limb-bound warp LIMB_DIVERGE is raised in every lane of the group instead. A lane whose register target is not of space 0x0
traps with ADDR_SPACE, one whose target is odd with ALIGN, and neither jumps nor writes its link; the others go on. -/
def Obligations.BranchResults : Prop :=
  ∀ (s : State) (st : Strand),
    let k0 := lowest st.group
    let differs (h : Hd) (target : Nat → Va) : Bool := (lanesOf st.group).any (fun k =>
      inMask (s.iss st h).g k != inMask (s.iss st h).g k0 || (inMask (s.iss st h).g k && target k != target k0))
    let traps (i : Instr) (h : Hd) (target : Nat → Va) : Prop := st.bound = true → differs h target = true →
      s.Does st i h ⟨s.trapLanes s.cur st.group 0x11 (s.iss st h).pc 4 0, .nothing, [], false⟩
    let jump (i : Instr) (h : Hd) (target : Nat → Va) : Prop := s.Ready st h → traps i h target ∧
      (st.bound = false ∨ differs h target = false →
        s.Does st i h ⟨s.putStrand s.cur st, .nothing, (lanesOf (s.iss st h).g).map (fun k => (k, target k)), differs h target⟩)
    let link (i : Instr) (h : Hd) (target : Nat → Va) : Prop := s.Ready st h → traps i h target ∧
      (st.bound = false ∨ differs h target = false →
        let r := if st.ctx.wide then 55 else 54
        ∃ st', s.Does st i h ⟨s.putStrand s.cur st', .reg r, (lanesOf (s.iss st h).g).map (fun k => (k, target k)), differs h target⟩ ∧
          st.Wrote64 st' (s.iss st h).g r (fun _ => ((s.iss st h).pc + 4).setWidth 64))
    (∀ f : Br,
      jump (.br f) (brw 0xA8 f) (fun _ => (s.iss st (brw 0xA8 f)).pc + (f.off.signExtend 48 <<< 1)) ∧
      link (.call f) { brw 0xAA f with more := [54, 55] } (fun _ => (s.iss st (brw 0xAA f)).pc + (f.off.signExtend 48 <<< 1))) ∧
    (∀ f : Brl,
      jump (.brL f) (brlw 0xA9 f) (fun _ => (s.iss st (brlw 0xA9 f)).pc + (f.off.signExtend 48 <<< 1)) ∧
      link (.callL f) { brlw 0xAB f with more := [54, 55] } (fun _ => (s.iss st (brlw 0xAB f)).pc + (f.off.signExtend 48 <<< 1))) ∧
    (∀ f : Rrr,
      let p (k : Nat) : W64 := st.pair k f.a.toNat
      let through (i : Instr) (h : Hd) (linked : Bool) : Prop := s.Ready st h →
        let x := s.iss st h
        let space := maskOf (fun k => inMask x.g k && p k >>> 60 != 0)
        let odd := maskOf (fun k => inMask x.g k && !inMask space k && (p k).getLsbD 0)
        let good := x.g &&& ~~~space &&& ~~~odd
        let stay := lanesOf (st.group &&& ~~~space &&& ~~~odd)
        let apart := stay.any (fun k => inMask good k != inMask good (stay.headD 0) ||
          inMask good k && (p k).setWidth 48 != (p (stay.headD 0)).setWidth 48)
        let trap (m : Word) (code : Nat) (t : State) : State := if m = 0 then t else t.trapLanes s.cur m code x.pc 4 0
        let r := if st.ctx.wide then 55 else 54
        (st.bound = true → apart = true → s.Does st i h ⟨s.trapLanes s.cur st.group 0x11 x.pc 4 0, .nothing, [], false⟩) ∧
        (st.bound = false ∨ apart = false →
          ∃ st', (if linked then st.Wrote64 st' good r (fun _ => (x.pc + 4).setWidth 64) else st' = st) ∧
            s.Does st i h ⟨trap odd 0x06 (trap space 0x07 (s.putStrand s.cur st')), if linked then .reg r else .nothing,
              (lanesOf good).map (fun k => (k, (p k).setWidth 48)), apart⟩)
      through (.jr f) (rrr 0xAD f) false ∧ through (.ret f) (rrr 0xAE f) false ∧
        through (.callr f) { rrr 0xAC f with more := [54, 55] } true)

/-- R335: `trapi` parks every lane of its group with a precise record of code 0x31 whose detail is its code and whose RESUME
is the address after it, in every context; a word with b set is no encoding. R90: `brk` does so with code 0x30. R69: what a
lane that takes a precise trap holds; the other lanes, the registers, the predicates and memory are as before. -/
def Obligations.SoftwareTraps : Prop :=
  (∀ (s : State) (st : Strand) (f : Rrr),
    let trap (i : Instr) (op code : Nat) : Prop := s.Ready st (rrr op f) →
      s.Does st i (rrr op f) ⟨s.trapLanes s.cur st.group code (s.iss st (rrr op f)).pc 4 (f.d.toNat * 64 + f.a.toNat), .nothing, [], false⟩
    trap (.brk f) 0xB8 0x30 ∧ trap (.trapi f) 0xF4 0x31) ∧
  (opRow 0xF4).map (fun r => (r.ctx, r.guarded)) = some (15, false) ∧
  decodeWord 0x002313D1 = .ok (.trapi ⟨0, BitVec.ofNat 6 (0x123 / 64), BitVec.ofNat 6 0x123, 0, 0⟩) ∧
  (∀ f : Rrr, f.b ≠ 0 → decodeWord (rrrWord 0xF4 f) = .error .illRes) ∧
  ∀ (s : State) (i : Nat) (st : Strand) (m : Word) (code len detail : Nat) (pc : Va), s.strand i = some st →
    ∃ st', s.trapLanes i m code pc len detail = s.putStrand i st' ∧ st'.lanes.length = st.lanes.length ∧
      st'.vregs = st.vregs ∧ st'.sregs = st.sregs ∧ st'.pends = st.pends ∧
      ∀ k < st.lanes.length, if inMask m k = true then
          (st'.lane k).st = .fault ∧ (st'.lane k).preds = (st.lane k).preds ∧ (st'.lane k).pc = (st.lane k).pc ∧
          ∃ r, (st'.lane k).flts = (st.lane k).flts ++ [r] ∧ r.code = code ∧ r.pc = pc ∧ r.resume = pc + BitVec.ofNat 48 len ∧
            r.detail = BitVec.ofNat 32 detail ∧ r.wid = st.wid ∧ r.async = false ∧ r.recov = false
        else st'.lane k = st.lane k

/-- R82 to R86, R75, R271, R336: what `exit`, `join`, the rejoin masks, `trail`, `waitr`, `home`, `rti` and `bar.wait` do
before their run ends. R75: at the end of a `join`'s run a lane outside its mask goes on; the others park until every lane of
the mask has arrived or has left, and then go on. R68, R85: at the end of a `trail`'s run the pending instructions it names
are deferred entries, each with its destination and its lanes, in program order, where the table of 8 has room for all; with
no room the warp stays parked.
Model's own choices: notes/assumptions/12.md. -/
def Obligations.RunEndInstructions : Prop :=
  ∀ (s : State) (st : Strand) (f : Rrr),
    let h (op : Nat) : Hd := rrr op f
    let acts (m : Word) (a : EndAct) (st' : Strand) : Prop := st' = { st with lanes := st'.lanes } ∧ st'.lanes.length = st.lanes.length ∧
      ∀ k < st.lanes.length, st'.lane k = if inMask m k = true then { st.lane k with act := some a } else st.lane k
    (s.Ready st (h 0xAF) → st.bound = false → ∃ st', acts (s.iss st (h 0xAF)).g .exit st' ∧
      s.Does st (.exit f) (h 0xAF) ⟨s.putStrand s.cur st', .nothing, [], true⟩) ∧
    (s.Ready st (h 0xB0) → s.Does st (.jset f) (h 0xB0)
      ⟨s.putStrand s.cur { st with js := st.js.set (f.d.toNat % 16) st.group }, .nothing, [], false⟩) ∧
    (s.Ready st (h 0xB1) → s.Does st (.jadd f) (h 0xB1)
      ⟨s.putStrand s.cur { st with js := st.js.set (f.d.toNat % 16) (st.js.getD (f.d.toNat % 16) 0 ||| st.group) }, .nothing, [], false⟩) ∧
    (s.Ready st (h 0xB2) → ∃ st', acts st.group (.join (f.d.toNat % 16) (f.x.getLsbD 0)) st' ∧
      s.Does st (.join f) (h 0xB2) ⟨s.putStrand s.cur st', .nothing, [], true⟩) ∧
    (s.Ready st (h 0xB3) → s.Does st (.trail f) (h 0xB3) ⟨s.putStrand s.cur { st with trail := some f }, .nothing, [], true⟩) ∧
    (let w := { h 0xB4 with more := List.range 56 }
     s.Ready st w → (∀ p ∈ st.pends, ∀ c ∈ p.caps, inMask st.group c.lane = false) → s.Does st (.waitr f) w ⟨s, .nothing, [], false⟩) ∧
    (s.Ready st (h 0xA2) → ∃ st', acts st.group .home st' ∧
      s.Does st (.home f) (h 0xA2) ⟨s.putStrand s.cur st', .nothing, [], true⟩) ∧
    (s.Ready st (h 0xF5) → (st.routine ≠ .none ∨ ∀ k < 32, inMask st.group k = true → (st.lane k).intrap = true) →
      ∃ st', acts st.group .rti st' ∧ s.Does st (.rti f) (h 0xF5) ⟨s.putStrand s.cur st', .nothing, [], true⟩) ∧
    (s.Ready st (h 0xC9) → (s.barOf (s.iss st (h 0xC9)) (f.d.toNat + 64 * (f.x.toNat % 8))).isSome →
      ∃ st', st' = { st with lanes := st'.lanes } ∧ st'.lanes.length = st.lanes.length ∧
        (∀ k < st.lanes.length, st'.lane k = if inMask st.group k = true then { st.lane k with
            act := some (.bar (f.d.toNat + 64 * (f.x.toNat % 8)) ((st.src k f.a).getLsbD 0) (f.x.getLsbD 3)) } else st.lane k) ∧
        s.Does st (.barWait f) (h 0xC9) ⟨s.putStrand s.cur st', .nothing, [], true⟩) ∧
    (s.Ready st (h 0xB2) → EndsAlone s st → st.pends = [] →
      let all := st.js.getD (f.d.toNat % 16) 0
      let awaited : Prop := ∃ j < 32, inMask all j = true ∧ inMask st.group j = false ∧ (st.lane j).st = .ready
      ∃ t st', exec (.join f) s = .next t ∧ t.strand s.cur = some st' ∧ s.SameMemory t ∧ st'.js = st.js ∧ st'.vregs = st.vregs ∧
        st'.run = none ∧ st'.runEnd = false ∧ (∀ k < 32, inMask st.group k = false → st'.lane k = st.lane k) ∧
        ∀ k < 32, inMask st.group k = true →
          (inMask all k = true ∧ awaited → (st'.lane k).st = .join ∧ (st'.lane k).pc = (st.lane k).pc) ∧
          (inMask all k = false ∨ ¬ awaited → (st'.lane k).st = .ready ∧ (st'.lane k).act = none ∧ (st'.lane k).pc = (st.lane k).pc + 4)) ∧
    (s.Ready st (h 0xB3) → EndsAlone s st → (∀ p ∈ st.pends, p.flts = [] ∧ p.caps ≠ []) →
      let room := (st.pends.filter (fun p => p.trailed || trailed f p)).length ≤ 8
      ∃ t st', exec (.trail f) s = .next t ∧ t.strand s.cur = some st' ∧ s.SameMemory t ∧ st'.run = none ∧
        (∀ k < 32, inMask st.group k = true → (st'.lane k).st = .ready ∧ (st'.lane k).pc = (st.lane k).pc + 4) ∧
        (room → st'.trail = none ∧ st'.pends = st.pends.map (fun p => if trailed f p then { p with trailed := true } else p) ∧
          st'.runEnd = st.pends.any (fun p => !p.trailed && !trailed f p)) ∧
        (¬ room → st'.trail = some f ∧ st'.pends = st.pends ∧ st'.runEnd = true))

/-- R82: when the run of an `exit` ends with nothing outstanding, its lanes have exited and left every rejoin mask.
Model's own choices: notes/assumptions/12.md. -/
def Obligations.ExitLeaves : Prop :=
  ∀ (s : State) (st : Strand) (f : Rrr), s.Ready st (rrr 0xAF f) → st.ctx = .L → st.fg = none → st.bound = false → st.pends = [] →
    st.trail = none → st.routine = .none → s.savedAway s.cur = false → (∀ r ∈ (s.func (s.fnOf st)).replays, r.strand ≠ s.cur) →
    (∀ k < 32, inMask (s.iss st (rrr 0xAF f)).g k = true ∨ (st.lane k).st = .exited ∨ (st.lane k).st = .never) →
    (∀ k < 32, (st.lane k).flts = [] ∧ (st.lane k).act = none) →
    ∃ t st', exec (.exit f) s = .next t ∧ t.strand s.cur = some st' ∧ st'.runEnd = false ∧ st'.run = none ∧
      (∀ k < 32, (st'.lane k).st = if (st.lane k).st = .never then .never else .exited) ∧
      (∀ j k, k < 32 → inMask (s.iss st (rrr 0xAF f)).g k = true → inMask (st'.js.getD j 0) k = false) ∧
      ∀ a, mget t.mem a = mget s.mem a

/-- R79, R80, R88, R89: `wq.push` gives its workgroup's queue one more entry, of its reserve of 32 or else a shared one,
where there is room and a warp to pop it, and stalls where there is none; `wq.pop` returns the oldest entry its warp has
not popped, and parks on an empty queue.
Model's own choices: notes/assumptions/14.md. -/
def Obligations.WaggleResults : Prop :=
  ∀ (s : State) (st : Strand) (c : Cx) (f : Rrr), s.cx st.cx = some c →
    (let lead := s.cxs.filter (fun e => e.2.core == c.core && e.2.resident && e.2.lead.isSome)
     let own := c.waggle.length - c.wqShared < 32
     let shared := (lead.map (fun e => e.2.wqShared)).sum + 32 * lead.length < 256 ∧
      s.queuesBehind s.cur .waggle (fun t => s.homeUnit t == c.core) = false
     (s.Ready st (rrr 0xB6 f) → own ∨ shared → s.liveWarps c ≠ [] →
      ∃ u, s.Does st (.wqPush f) (rrr 0xB6 f) ⟨u.evalPops st.cx, .nothing, [], false⟩ ∧ u.strands = s.strands ∧ s.SameMemory u ∧
        u.cx st.cx = some { c with
          waggle := c.waggle ++ [st.sreg f.d.toNat], waggleOrd := c.waggleOrd ++ [(st.lane 0).ord]
          wqShared := if own then c.wqShared else c.wqShared + 1 }) ∧
     (s.Ready st (rrr 0xB6 f) → own ∨ shared → s.liveWarps c = [] → s.Does st (.wqPush f) (rrr 0xB6 f) ⟨s, .nothing, [], false⟩) ∧
     (s.Ready st (rrr 0xB6 f) → ¬ (own ∨ shared) → exec (.wqPush f) s = .next (s.setStall s.cur .waggle))) ∧
    (∀ v, s.Ready st (rrr 0xB7 f) → c.lead.isSome → c.waggle[st.popped - c.freed]? = some v →
      ∃ u p st', s.Does st (.wqPop f) (rrr 0xB7 f) ⟨u, .pend f.d.toNat p.id, [], false⟩ ∧ u.strand s.cur = some st' ∧
        st'.popped = st.popped + 1 ∧ st'.pends = st.pends ++ [p] ∧ p.op = 0xB7 ∧ p.dst = f.d.toNat ∧ p.cnt = 2 ∧
        p.caps = (lanesOf st.group).map (fun k => ⟨k, 0, v.setWidth 128⟩) ∧ s.SameMemory u) ∧
    (s.Ready st (rrr 0xB7 f) → (c.lead = none ∨ c.waggle[st.popped - c.freed]? = none ∧ s.leadGone c = true) →
      s.Does st (.wqPop f) (rrr 0xB7 f) ⟨s.trapLanes s.cur st.group 0x03 (s.iss st (rrr 0xB7 f)).pc 4 0, .nothing, [], false⟩) ∧
    (s.Ready st (rrr 0xB7 f) → c.lead.isSome → c.waggle[st.popped - c.freed]? = none → s.leadGone c = false →
      ∃ st', s.Does st (.wqPop f) (rrr 0xB7 f) ⟨s.putStrand s.cur st', .nothing, [], true⟩ ∧ st' = { st with lanes := st'.lanes } ∧
        ∀ k < st.lanes.length, st'.lane k = if inMask st.group k = true then
          { st.lane k with st := .waggle, act := some (.wpop f.d.toNat (st.group = st.wholeMask)) } else st.lane k)

/-- R102, R139, R186, R231, R260, R280, R289, R343, R79: when what stalled groups wait for becomes free, the one that
stalled first tries its instruction again, and no other; the groups that wait for their workgroups' own 256 commands all try
again, and replays that wait for a miss-buffer entry start. R62, R63: of the warps in the slots of a core, one that has been
passed over at 64 opportunities issues next, and else the one whose run became ready first; a warp passed over 64 times
that can issue is put first of all.
Model's own choices: notes/assumptions/13, 51, 61.md. -/
def Obligations.StallGrants : Prop :=
  ∀ (s : State) (i : Nat) (st : Strand), s.strand i = some st → s.stoppedForSave st = false → s.strands.Pairwise (fun a b => a.1 < b.1) →
    let first (k : Stall) (near : Strand → Bool) : Prop := st.stall = some k ∧ near st = true ∧
      ∀ e ∈ s.strands, e.1 ≠ i → e.2.stall = some k → near e.2 = true → s.stoppedForSave e.2 = false →
        (st.place k).getD 0 < (e.2.place k).getD 0
    let go : State := s.putStrand i { st with stall := none }
    let grant (ev : Instr) (k : Stall) (near : Strand → Bool) : Prop := first k near → exec ev s = .next go
    ∀ n : Nat,
      grant (.generalBlockGrant n) .block (fun t => s.homeUnit t == n) ∧
      grant (.sfuQueueAdmit n) .sfu (fun t => s.homeUnit t == n) ∧
      (first .miss (fun t => s.unitOf t == n) → exec (.missBufferGrant n) s = .next (((s.strands.filter (fun e => s.unitOf e.2 == n &&
        (s.func (s.fnOf e.2)).replays.any (fun r => r.strand == e.1 && r.go))).map (·.1)).foldl State.launchAll go)) ∧
      (let near (t : Strand) : Bool := dieOfUnit (s.homeUnit t) == n
       first .engine near ∨ (st.stall = some .cmds ∧ near st = true) → ∃ t, exec (.engineQueueRoom n) s = .next t ∧ t = { s with strands := t.strands } ∧
         t.strand i = some { st with stall := none } ∧ ∀ e ∈ s.strands, e.1 ≠ i →
           let own := e.2.stall = some .cmds ∧ near e.2 = true ∧ s.stoppedForSave e.2 = false
           (own → t.strand e.1 = some { e.2 with stall := none }) ∧ (¬ own → first .engine near → t.strand e.1 = some e.2)) ∧
      grant (.homeRecordGrant n) .homeRec (fun t => t.cx == n) ∧
      grant (.engineHolderFree n) .holder (fun t => s.homeUnit t == n) ∧
      grant (.matrixQueueRoom n) .matrix (fun t => s.homeUnit t == n) ∧
      grant (.combBufferRoom n) .comb (fun t => s.insts.any (fun e => e.2.cx == t.cx && e.2.modeChan == n)) ∧
      grant (.waggleEntryFree n) .waggle (fun t => s.homeUnit t == n) ∧
      (s.canIssue i st = true → 64 ≤ st.passed → exec (.issueStarvation i) s = .next { s with agenda := .run i :: s.agenda }) ∧
      (let slots := s.readies.filter (fun e => s.portOf e.2 == 2 * n)
       n < 1024 → (∀ e ∈ slots, e.2.fg = none) → slots ≠ [] → ∃ e, s.portPick (2 * n) = some e ∧ e ∈ slots ∧
        ((∃ m ∈ slots, 64 ≤ m.2.passed) → 64 ≤ e.2.passed) ∧
        ((∀ m ∈ slots, m.2.passed < 64) → ∀ m ∈ slots, e.2.readyAt ≤ m.2.readyAt))

/-- R321 to R323: the one deliverable fault of a strand goes to the kernel's trap routine where the routine takes it,
with the record's address, code, detail and RESUME in the routine's registers; otherwise to the function's fault
queue, and the lane waits. Two clauses are the model's own choices, not the spec's words: that a record which goes to the
routine is copied to the host fault log too is notes/assumptions/33.md's reading of R323 and R380, and where
`Cx.routineTakes` sends a record of a fault beside TRAPENT's section is notes/assumptions/15.md.
Model's own choices: notes/assumptions/15, 33.md. -/
def Obligations.FaultDelivered : Prop :=
  ∀ (s : State) (i k : Nat) (st : Strand) (c : Cx) (r : FaultRec), s.strand i = some st → s.cx st.cx = some c → st.fg = none →
    st.lanes.length = (if st.ctx = .L then 32 else 1) → st.vregs.length = 56 → st.sregs.length = 56 →
    s.deliverable i st = true → (st.lane k).st = .fault → (st.lane k).flts = [r] →
    (∀ j, j ≠ k → (st.lane j).st ≠ .fault ∧ (st.lane j).st ≠ .away) →
    (c.routineTakes st (st.lane k) r = true →
      ∃ t st', exec (.faultDelivery i) s = .next t ∧ t = ((s.putStrand i st).hostLog c.fn r).putStrand i st' ∧
        (st'.lane k).pc = BitVec.ofNat 48 (c.image.toNat + c.hdr.trapEnt) ∧ (st'.lane k).st = .ready ∧ (st'.lane k).intrap = true ∧
        (st'.lane k).flts = [] ∧ (∀ j, j ≠ k → st'.lane j = st.lane j) ∧
        st'.pair k 50 = r.addr ∧ st'.reg32 k 52 = BitVec.ofNat 32 r.code ∧ st'.reg32 k 53 = r.detail ∧
        st'.pair k (if st.ctx.wide then 55 else 54) = r.resume.setWidth 64) ∧
    (c.routineTakes st (st.lane k) r = false →
      ∃ u, exec (.faultDelivery i) s = .next (u.queueRecord c.fn r (some (i, k))) ∧
        u = s.putStrand i (st.setLane k (fun l => { l with flts := [] })))

/-- R253 to R256: the barrier instructions on a barrier of their workgroup: what is written, what an arrival counts,
what a test tells; and the completion of a phase flips its parity. R256: at the end of a `bar.wait`'s run a lane whose phase
has completed goes on, with ENG_STATUS where that phase carried an error, and the others park. -/
def Obligations.BarrierResults : Prop :=
  ∀ (s : State) (st : Strand) (c : Cx) (f : Rrr) (b : Bar), s.cx st.cx = some c →
    let n := f.d.toNat + 64 * (f.x.toNat % 8)
    let m := st.group
    let k0 := lowest m
    let put (b' : Bar) : State := s.updCx st.cx (fun x => { x with bars := x.bars.set n b' })
    let a (k : Nat) : Nat := (st.src k f.a).toNat
    let lanes := (lanesOf m).length
    n < c.hdr.barriers → c.bars.getD n {} = b →
    (s.Ready st (rrr 0xC6 f) → (b.valid = false ∨ (b.out = 0 ∧ s.barWaited st.cx n = false)) → a k0 % 4096 ≤ 2048 →
      s.Does st (.barInit f) (rrr 0xC6 f) ⟨put { b with
        valid := true, threads := a k0 % 4096, pending := ((st.src k0 f.b).toNat % 2 ^ 31 : Nat), arrived := 0, err := 0, lerr := 0, cnterr := false,
        carry := [], lcarry := [] },
        .nothing, [], false⟩) ∧
    (s.Ready st (rrr 0xC7 f) → b.valid = true → b.cnterr = false → b.arrived + lanes < b.threads →
      ∃ h, s.Does st (.barArrive f) (rrr 0xC7 f) ⟨put { b with arrived := b.arrived + lanes, carry := h }, .nothing, [], false⟩ ∧
        ∀ k < 32, inMask m k = true → ∀ e ∈ (st.lane k).ord.hist, e.2 = .core → e ∈ h) ∧
    (s.Ready st (rrr 0xC7 f) → b.valid = true → b.cnterr = false → b.arrived + lanes = b.threads → b.pending = 0 →
      ∃ h u, s.Does st (.barArrive f) (rrr 0xC7 f) ⟨u.releaseBar st.cx n, .nothing, [], false⟩ ∧ u.strands = s.strands ∧ s.SameMemory u ∧
        (u.cx st.cx).map (fun x => x.bars.getD n {}) =
          some { b with phase := !b.phase, lerr := b.err, err := 0, arrived := 0, pending := 0, carry := [], lcarry := h } ∧
        ∀ k < 32, inMask m k = true → ∀ e ∈ (st.lane k).ord.hist, e.2 = .core → e ∈ h) ∧
    (s.Ready st (rrr 0xC8 f) → b.valid = true → b.cnterr = false → b.pending + (a k0 % 2 ^ 31 : Nat) ≤ 2 ^ 31 - 1 →
      (b.arrived ≠ b.threads ∨ b.pending + (a k0 % 2 ^ 31 : Nat) ≠ 0) →
      s.Does st (.barExpect f) (rrr 0xC8 f) ⟨put { b with pending := b.pending + (a k0 % 2 ^ 31 : Nat) }, .nothing, [], false⟩) ∧
    (s.Ready st (rrr 0xCA f) → b.valid = true → b.cnterr = false →
      let p (k : Nat) : Bool := b.phase != (st.src k f.b).getLsbD 0
      ∃ st', s.Does st (.barTest f) (rrr 0xCA f) ⟨s.putStrand s.cur st', .nothing, [], false⟩ ∧
        (st.acquire (maskOf (fun k => inMask m k && p k)) b.lcarry 0x3F).WrotePred st' m (f.a.toNat % 8) p) ∧
    (s.Ready st (rrr 0xCB f) →
      s.Does st (.barInval f) (rrr 0xCB f) ⟨(put { b with valid := false, cnterr := false }).releaseBar st.cx n, .nothing, [], false⟩) ∧
    (s.Ready st (rrr 0xC9 f) → EndsAlone s st → st.pends = [] → s.cur ∈ c.strands → b.valid = true → b.cnterr = false →
      (b.lerr = 0 ∨ ∃ j < 32, inMask m j = false ∧ (st.lane j).st = .ready) →
      ∃ t st', exec (.barWait f) s = .next t ∧ t.strand s.cur = some st' ∧ s.SameMemory t ∧ st'.vregs = st.vregs ∧ st'.run = none ∧
        (∀ k < 32, inMask m k = false → st'.lane k = st.lane k) ∧
        ∀ k < 32, inMask m k = true → let past := b.phase != (st.src k f.a).getLsbD 0
          (past = false → (st'.lane k).st = .bar ∧ (st'.lane k).pc = (st.lane k).pc) ∧
          (past = true → b.lerr = 0 → (st'.lane k).st = .ready ∧ (st'.lane k).act = none ∧ (st'.lane k).pc = (st.lane k).pc + 4) ∧
          (past = true → b.lerr ≠ 0 → (st'.lane k).st = .fault ∧ ∃ r, (st'.lane k).flts = [r] ∧ r.code = 0x22 ∧
            r.detail = BitVec.ofNat 32 (b.lerr + 65536 * n) ∧ r.resume = (st.lane k).pc + 4))

/-- R253 to R256: a barrier instruction that names a barrier past BARRIERS, or one whose state forbids it, traps with
BAR_MISUSE in every lane of its group: `bar.init` on a VALID barrier with commands outstanding or a lane that waits, or with
THREADS above 2048; `bar.arrive`, `bar.expect` and `bar.test` on one that is not VALID or whose CNTERR is 1; arrivals past
THREADS; a PENDING above 2^31 - 1; and `bar.wait` on such a barrier, at the end of its run. -/
def Obligations.BarrierMisuse : Prop :=
  ∀ (s : State) (st : Strand) (c : Cx) (f : Rrr), s.cx st.cx = some c →
    let n := f.d.toNat + 64 * (f.x.toNat % 8)
    let traps (i : Instr) (op : Nat) : Prop := s.Ready st (rrr op f) →
      s.Does st i (rrr op f) ⟨s.trapLanes s.cur st.group 0x20 (s.iss st (rrr op f)).pc 4 0, .nothing, [], false⟩
    (c.hdr.barriers ≤ n → traps (.barInit f) 0xC6 ∧ traps (.barArrive f) 0xC7 ∧ traps (.barExpect f) 0xC8 ∧ traps (.barWait f) 0xC9 ∧
      traps (.barTest f) 0xCA ∧ traps (.barInval f) 0xCB) ∧
    (n < c.hdr.barriers →
      let b := c.bars.getD n {}
      let a := (st.src (lowest st.group) f.a).toNat
      (b.valid = true ∧ (b.out ≠ 0 ∨ s.barWaited st.cx n = true) ∨ 2048 < a % 4096 → traps (.barInit f) 0xC6) ∧
      (b.valid = false ∨ b.cnterr = true → traps (.barArrive f) 0xC7 ∧ traps (.barExpect f) 0xC8 ∧ traps (.barTest f) 0xCA) ∧
      (b.threads < b.arrived + (lanesOf st.group).length → traps (.barArrive f) 0xC7) ∧
      (2 ^ 31 - 1 < b.pending + (a % 2 ^ 31 : Nat) → traps (.barExpect f) 0xC8) ∧
      (s.Ready st (rrr 0xC9 f) → EndsAlone s st → st.pends = [] → s.cur ∈ c.strands → b.valid = false ∨ b.cnterr = true →
        (∃ j < 32, inMask st.group j = false ∧ (st.lane j).st = .ready) →
        ∃ t st', exec (.barWait f) s = .next t ∧ t.strand s.cur = some st' ∧ s.SameMemory t ∧ st'.vregs = st.vregs ∧
          (∀ k < 32, inMask st.group k = false → st'.lane k = st.lane k) ∧
          ∀ k < 32, inMask st.group k = true → (st'.lane k).st = .fault ∧ ∃ r, (st'.lane k).flts = [r] ∧ r.code = 0x20 ∧
            r.pc = (st.lane k).pc ∧ r.resume = (st.lane k).pc + 4))

/-- R227, R228, R231: a copy instruction, lane by lane. A lane that asks for nothing (`cp.l` of 0 bytes, a null block) issues
nothing. A pointer that steps 1 to 3 of R175 refuse, of either side of a `cp.l` or to a block, traps with ADDR_SPACE; a block
that is not 64-byte aligned with ALIGN and its address; a barrier past BARRIERS without NB with BAR_MISUSE. Every other lane
puts one command at the end of its die's queue, and its barrier counts it in OUT. A group that would pass its workgroup's 256
commands or the queue's 1,024 stalls and issues nothing.
Model's own choices: notes/assumptions/22.md. -/
def Obligations.CopyIssue : Prop :=
  ∀ (s : State) (st : Strand) (cx : Cx) (f : Rrr), s.cx st.cx = some cx →
    let die := dieOfUnit (s.homeUnit st)
    let d (k : Nat) : W64 := st.pair k f.d.toNat
    let copy (i : Instr) (op : Nat) (lin : Bool) : Prop := s.Ready st (rrr op f) →
      let word (k : Nat) : Word := if lin then st.src k f.b else st.src k f.a
      let len (k : Nat) : Nat := (word k).toNat % 2 ^ 23
      let bar (k : Nat) : Nat := if lin then (word k).toNat / 2 ^ 23 else (word k).toNat % 512
      let asks (k : Nat) : Bool := if lin then len k != 0 else d k != 0
      let cause (k : Nat) : Nat :=
        if (if lin then reachable (st.pair k f.a.toNat) (len k) && reachable (d k) (len k) else reachable (d k) 64) = false then 0x07
        else if lin = false ∧ (d k).toNat % 64 ≠ 0 then 0x06
        else if f.x.getLsbD 0 = false ∧ cx.hdr.barriers ≤ bar k then 0x20
        else 0
      let issuing := (lanesOf st.group).filter (fun k => asks k && cause k == 0)
      let behind (k : Stall) (near : Strand → Bool) : Prop := (st.place k).isSome = true ∧ s.queuesBehind s.cur k near = true
      let ownFull := 256 < (s.cmdsOf st.cx).length + issuing.length ∨ behind .cmds (fun t => t.cx == st.cx)
      let dieFull := 1024 < (s.die die).waiting.length + issuing.length ∨ behind .engine (fun t => dieOfUnit (s.homeUnit t) == die)
      (issuing ≠ [] → ownFull → exec i s = .next (s.setStall s.cur .cmds)) ∧
      (issuing ≠ [] → ¬ ownFull → dieFull → exec i s = .next (s.setStall s.cur .engine)) ∧
      (issuing = [] ∨ ¬ ownFull ∧ ¬ dieFull →
        ∃ (u : State) (st' : Strand) (y : Cx) (cmds : List Cmd), s.Does st i (rrr op f) ⟨u, .nothing, [], false⟩ ∧ s.SameMemory u ∧
          u.strand s.cur = some st' ∧ st' = { st with lanes := st'.lanes, run := st'.run } ∧
          ((∀ k < 32, inMask st.group k = true → asks k = true → cause k = 0) → u.strands = s.strands) ∧
          (∀ k < 32, inMask st.group k = false ∨ asks k = false ∨ cause k = 0 → st'.lane k = st.lane k) ∧
          (∀ k < 32, inMask st.group k = true → asks k = true → cause k ≠ 0 → (st'.lane k).st = .fault ∧
            ∃ r, (st'.lane k).flts = (st.lane k).flts ++ [r] ∧ r.code = cause k ∧ r.addr = (if cause k = 6 then d k else 0)) ∧
          (u.die die).queue = (s.die die).queue ++ cmds ∧ cmds.length = issuing.length ∧
          (∀ (j k : Nat) (c : Cmd), issuing[j]? = some k → cmds[j]? = some c →
            c.op = op ∧ c.cx = st.cx ∧ c.fn = s.fnOf st ∧ c.lane = k ∧ c.opd = d k ∧ c.word = word k ∧ c.nb = f.x.getLsbD 0 ∧
            (lin = true → c.opa = st.pair k f.a.toNat ∧ c.nominal = len k) ∧ c.mode = f.x.getLsbD 1 ∧ c.qs = f.x.getLsbD 3 ∧
            c.bar = bar k ∧ c.landed = 0 ∧ c.started = false ∧ c.ord = (st.lane k).ord) ∧
          u.cx st.cx = some y ∧ ∀ n < cx.bars.length, (y.bars.getD n {}).out = (cx.bars.getD n {}).out +
            (cmds.filter (fun c => !c.nb && c.bar == n)).length)
    copy (.cpL f) 0xC0 true ∧ copy (.cpT f) 0xC1 false ∧ copy (.cpG f) 0xC2 false ∧ copy (.cpGcm f) 0xC3 false

/-- R251, R252: `cp.stat` completes: it returns the outstanding count and the sticky status of an index and clears the
status. `cp.cancel` completes: of an index with no command outstanding it changes nothing; a command that no engine holds
ends CANCELLED as soon as what it describes is known, and one that an engine holds is marked to end at its next beat boundary.
Either traps with BAR_MISUSE in every lane of its group where the index is above 512 or names a barrier at or above BARRIERS. -/
def Obligations.CopyStatusAndCancel : Prop :=
  ∀ (s : State) (st : Strand) (c : Cx) (f : Rrr), s.cx st.cx = some c →
    (let n := (st.src (lowest st.group) f.a).toNat % 1024
     s.Ready st (rrr 0xC4 f) → n < c.hdr.barriers → n < 512 →
      let b := c.bars.getD n {}
      ∃ st', s.Does st (.cpStat f) (rrr 0xC4 f) ⟨(s.putStrand s.cur st').updCx st.cx (fun c => { c with
          bars := c.bars.modify n (fun b => { b with stk := false, stkcode := 0 }) }), .reg f.d.toNat, [], false⟩ ∧
        st.Wrote32 st' st.group f.d.toNat (fun _ =>
          BitVec.ofNat 32 (min b.out 65535 * 65536 + b.stkcode * 16 + b.stk.toNat))) ∧
    (let n := (st.src (lowest st.group) f.a).toNat % 1024
     s.Ready st (rrr 0xC4 f) → n = 512 →
      ∃ st', s.Does st (.cpStat f) (rrr 0xC4 f) ⟨(s.putStrand s.cur st').updCx st.cx (fun c => { c with nbStk := false, nbStkcode := 0 }),
          .reg f.d.toNat, [], false⟩ ∧
        st.Wrote32 st' st.group f.d.toNat (fun _ =>
          BitVec.ofNat 32 (min ((s.cmdsOf st.cx).filter (fun e => e.2.nb)).length 65535 * 65536 + c.nbStkcode * 16 + c.nbStk.toNat))) ∧
    (let n := (st.src (lowest st.group) f.d).toNat % 1024
     s.Ready st (rrr 0xC5 f) → (n = 512 ∨ n < 512 ∧ n < c.hdr.barriers) →
      s.Does st (.cpCancel f) (rrr 0xC5 f) ⟨s.cancel st.cx n, .nothing, [], false⟩ ∧
      let names (e : Nat × Cmd) : Bool := if n = 512 then e.2.nb else !e.2.nb && e.2.bar == n
      ((∀ e ∈ s.cmdsOf st.cx, names e = false) → s.cancel st.cx n = s) ∧
      (∀ e, s.cmdsOf st.cx = [e] → names e = true →
        let held := (s.die e.1).engines.any (fun g => g.2.cmd == some e.2.id)
        (held = true → s.cancel st.cx n = s.putCmd e.1 { e.2 with cancel := true }) ∧
        (held = false → e.2.started = true → s.cancel st.cx n = s.cmdEnd e.1 e.2 1) ∧
        (∀ s1 d, held = false → s.described e.1 e.2 = (s1, some d) → s.cancel st.cx n = s1.cmdEnd e.1 d 1) ∧
        (∀ s1, held = false → s.described e.1 e.2 = (s1, none) → s.cancel st.cx n = s1.putCmd e.1 { e.2 with cancel := true }))) ∧
    (let bad (r : BitVec 6) : Prop := let n := (st.src (lowest st.group) r).toNat % 1024; 512 < n ∨ n ≠ 512 ∧ c.hdr.barriers ≤ n
     let traps (i : Instr) (op : Nat) : Prop := s.Ready st (rrr op f) →
       s.Does st i (rrr op f) ⟨s.trapLanes s.cur st.group 0x20 (s.iss st (rrr op f)).pc 4 0, .nothing, [], false⟩
     (bad f.a → traps (.cpStat f) 0xC4) ∧ (bad f.d → traps (.cpCancel f) 0xC5))

/-- R234: a free engine with runnable work is leased to a function of nonzero weight where one has work, to the one whose
cycles used divided by its weight are least, and else to the one that has used least, ties to the lower number; for the length
LEASE_CYC has then, and it takes that function's first command that may go on. R235, R236: a lease that has lasted its cycles
ends at a beat boundary, after one beat at least: it charges its cycles and puts the command back at the head of the queue; a
started `cp.gcm` keeps its engine. R234: every 2^20 cycles what each function has used is halved. R229, R239, R244, R247, R250:
a beat lands at most 256 bytes of the command its engine holds, and ends it where a byte cannot be read or written; a `cp.l`
writes the bytes it reads. Each landing counts against the command's barrier. R249, R250: a `cp.gcm` whose stream is not valid
ends DESC; one whose IV is not above its stream's last ends GCM_CTR; one that passes marks its destination and lands only then;
an encrypt writes its tag; a decrypt whose tag matches clears its marks and makes its granules dirty, else it ends GCM_TAG.
Model's own choices: notes/assumptions/6, 22, 23, 60.md. -/
def Obligations.EngineSteps : Prop :=
  ∀ (s : State) (die eng : Nat),
    let weight (f : Nat) : Nat := (s.slice f).leasew
    let works (f : Nat) : Prop := s.fnRuns f = true ∧ ∃ c ∈ (s.die die).queued eng, c.fn = f ∧ s.cmdHeld c = false
    (∀ g, works g → ∃ f, s.engPick die eng = some f ∧ works f ∧
      (weight g ≠ 0 → weight f ≠ 0 ∧ s.usedBy die f * weight g ≤ s.usedBy die g * weight f ∧
        (s.usedBy die f * weight g = s.usedBy die g * weight f → f ≤ g)) ∧
      (weight f = 0 → s.usedBy die f ≤ s.usedBy die g ∧ (s.usedBy die f = s.usedBy die g → f ≤ g))) ∧
    (∀ f c, eng < 20 → tget (s.die die).engines eng = none → s.engPick die eng = some f → 0 < s.mg.leaseCyc →
      ((s.die die).queued eng).find? (fun q => q.fn == f && !s.cmdHeld q) = some c →
      ∃ u : State, u = s.setDie die (fun d => { d with engines := (u.die die).engines }) ∧
        tget (u.die die).engines eng = some ⟨f, some c.id, s.clock, s.mg.leaseCyc, s.clock, false⟩ ∧
        (∀ e, e ≠ eng → tget (u.die die).engines e = tget (s.die die).engines e) ∧
        (c.started = true → exec (.engineLeaseGrant die eng) s = .next u) ∧
        (c.started = false → exec (.engineLeaseGrant die eng) s = .next ((u.cmdStart die c).engNext die eng (s.die die).queue.length))) ∧
    (∀ l c, tget (s.die die).engines eng = some l → s.cmdAt die eng = some c →
      ((c.op = 0xC3 ∧ c.started = true) ∨ l.beat = false ∨ s.clock < l.since + l.len → exec (.leaseExpiry die eng) s = .next s) ∧
      ((c.op ≠ 0xC3 ∨ c.started = false) → l.beat = true → l.since + l.len ≤ s.clock →
      ∃ t, exec (.leaseExpiry die eng) s = .next t ∧ (t.die die).queue = c :: (s.die die).queue.filter (fun q => q.id != c.id) ∧
        tget (t.die die).engines eng = none ∧
        tgetD (t.die die).used l.fn 0 = tgetD (s.die die).used l.fn 0 + (s.clock - l.paid) ∧ s.SameMemory t ∧ t.strands = s.strands)) ∧
    ((s.die die).halvings < s.cycle die / 2 ^ 20 →
      ∃ t, exec (.usedHalving die) s = .next t ∧ (∀ f, tgetD (t.die die).used f 0 = s.usedBy die f / 2) ∧
        (∀ e l, tget (s.die die).engines e = some l → tget (t.die die).engines e = some { l with paid := s.clock }) ∧
        (t.die die).halvings = (s.die die).halvings + 1 ∧ (t.die die).queue = (s.die die).queue ∧ s.SameMemory t) ∧
    (∀ c, s.cmdAt die eng = some c → s.fnRuns c.fn = true → s.cmdStops c = false → c.cancel = false → c.started = true →
      let lands (beat : State × Eg (Puts × Nat)) : Prop :=
        (∀ s1 ps n, beat = (s1, .ok (ps, n)) → n = min 256 (c.nominal - c.landed) ∧
          exec (.beatLand die eng) s = .next ((s1.engPuts die c false ps).landed die eng c n)) ∧
        (∀ s1 x, beat = (s1, .bad x) → exec (.beatLand die eng) s = .next ((s1.cmdEnd die c x).engGoOn die eng)) ∧
        (∀ s1, beat = (s1, .wait) → exec (.beatLand die eng) s = .next s1)
      (c.op = 0xC0 → lands (s.beatL die c)) ∧ (c.op = 0xC1 → lands (s.beatT die c)) ∧ (c.op = 0xC2 → lands (s.beatG die c)) ∧
      (∀ s1 ps n, c.op = 0xC0 → s.beatL die c = (s1, .ok (ps, n)) → (∀ i < n, c.overlapAt (c.landed + i) = false) →
        ∃ sr bs, s.engRead die c c.opa c.landed n = (sr, .ok bs) ∧ ps.flatMap Put.bytes = bs) ∧
      (c.op = 0xC3 → (c.checked = false ∨ c.landed = c.nominal) → exec (.beatLand die eng) s = .next s) ∧
      (c.op = 0xC3 → c.checked = true → c.landed ≠ c.nominal →
        (∀ s1 ps n ct, s.beatGcm die c = (s1, .ok (ps, n, ct)) → n = min 256 (c.nominal - c.landed) ∧
          exec (.beatLand die eng) s = .next (((s1.engPuts die c (!c.mode) ps).beaten die eng).setDie die (fun d =>
            { d with queue := d.queue.map (fun q => if q.id == c.id then { q with landed := q.landed + n, block := q.block ++ ct } else q) }))) ∧
        (∀ s1 x, s.beatGcm die c = (s1, .bad x) → exec (.beatLand die eng) s = .next ((s1.cmdEnd die c x).engGoOn die eng)))) ∧
    (∀ (c : Cmd) (y : Cx) (n : Nat), (s.die die).queue = [c] → c.node = none → c.landed + n ≠ c.nominal → s.cx c.cx = some y →
      let b := y.bars.getD c.bar {}
      (c.nb = true ∨ b.arrived ≠ b.threads → ((s.landed die eng c n).die die).queue = [{ c with landed := c.landed + n }]) ∧
      (c.nb = false → c.bar < y.bars.length → b.valid = true → b.arrived ≠ b.threads → (-(2 ^ 31) : Int) ≤ b.pending - (n : Int) →
        ∃ z, (s.landed die eng c n).cx c.cx = some z ∧ (z.bars.getD c.bar {}).pending = b.pending - (n : Int))) ∧
    (∀ c, s.cmdAt die eng = some c → c.op = 0xC3 → c.started = true → c.checked = false → c.cancel = false → s.fnLive c.fn = true →
      s.gcmWaits die c = false →
      let g := GcmCmd.of c.block
      ((s.streamOf c).valid = false → exec (.gcmCounterCheck die eng) s = .next ((s.cmdEnd die c 8).engGoOn die eng)) ∧
      (∀ s1 x, s.gcmCheck die c = (s1, some (some x)) → exec (.gcmCounterCheck die eng) s = .next ((s1.cmdEnd die c x).engGoOn die eng)) ∧
      (∀ s1, s.gcmCheck die c = (s1, some none) →
        let t := s1.streamOf c
        ((g.ivid ≠ t.sid.toNat ∨ g.ctr ≤ t.last.toNat) →
          exec (.gcmCounterCheck die eng) s = .next ((s1.cmdEnd die c 6).engGoOn die eng)) ∧
        (g.ivid = t.sid.toNat → t.last.toNat < g.ctr → g.stream < (s1.func c.fn).streams.length →
          let s2 := s1.setFunc c.fn (fun f => { f with streams := f.streams.modify g.stream (fun t => { t with last := BitVec.ofNat 64 g.ctr }) })
          let marks := if c.mode then [] else s2.gcmSectors die c g.dst g.len
          ∃ u, exec (.gcmCounterCheck die eng) s = .next u ∧ u.dies = (s1.putCmd die { c with checked := true, marks := marks }).dies ∧
            ((u.func c.fn).streams.getD g.stream ⟨false, 0, 0, 0⟩).last = BitVec.ofNat 64 g.ctr ∧ s1.SameMemory u ∧
            (∀ p ∈ marks, p ∈ u.poison) ∧ ∀ p ∈ s1.poison, p ∈ u.poison))) ∧
    (∀ c, s.cmdAt die eng = some c → c.op = 0xC3 → c.checked = true → c.cancel = false → c.nominal ≤ c.landed → s.fnLive c.fn = true →
      let g := GcmCmd.of c.block
      let tag := c.tagOf (s.streamOf c).key
      (∀ s1 ps, c.mode = true → s.engAim die c g.tag 0 tag = (s1, .ok ps) →
        ps.flatMap Put.bytes = tag ∧ exec (.gcmTagVerify die eng) s = .next (((s1.engPuts die c false ps).cmdEnd die c 0).engGoOn die eng)) ∧
      (∀ s1 bs, c.mode = false → s.engRead die c g.tag 0 16 = (s1, .ok bs) →
        (bs ≠ tag → exec (.gcmTagVerify die eng) s = .next ((s1.cmdEnd die c 5).engGoOn die eng)) ∧
        (bs = tag → ∃ u : State, exec (.gcmTagVerify die eng) s = .next ((u.cmdEnd die c 0).engGoOn die eng) ∧
          u = { s1 with poison := u.poison, gran := u.gran, chans := u.chans, rowver := u.rowver } ∧
          (∀ p, p ∈ u.poison ↔ p ∈ s1.poison ∧ p ∉ c.marks) ∧
          ∀ p ∈ c.marks, isDram (32 * p) = true → (u.granule (granOf (32 * p))).dirty = true)))

/-- R262 to R267, R271: a departing lane is recorded as a class-L instruction of its run with a continuation of what it
carries, and the run ends.
Model's own choices: notes/assumptions/29.md. -/
def Obligations.ForageIssue : Prop :=
  ∀ (s : State) (st : Strand) (f : Rrr), st.ctx = .L → (s.hdrOf st).forage ≠ 0 →
    (s.strands.all (fun e => e.2.fg.isNone)) = true → s.strands.all (fun e => decide (e.1 < s.nextId)) = true → s.nextId < 2 ^ 64 →
    let go (i : Instr) (op : Nat) : Prop := s.Ready st (rrr op f) → (s.iss st (rrr op f)).g ≠ 0 →
      (s.recordsUsed st.cx + 32 ≤ (s.hdrOf st).forage) → s.queuesBehind s.cur .homeRec (fun t => t.cx == st.cx) = false →
      (let vas := ((s.iss st (rrr op f)).pc.toNat + 4) ::
          (lanesOf (s.iss st (rrr op f)).g).filterMap (fun k => s.accessVa st k (st.pair k f.a.toNat) 0 1 false)
       ((s.func (s.fnOf st)).reg 0).testBit 0 = false ∨ (s.takePages s.cur (s.unitOf st) (s.fnOf st) vas false).isSome) →
      ∃ (u : State) (p : Pend) (st' : Strand), s.Does st i (rrr op f) ⟨u, .nothing, [], true⟩ ∧ u.strand s.cur = some st' ∧
        st' = { st with pends := st.pends ++ [p] } ∧ p.op = op ∧ p.cnt = 0 ∧ s.SameMemory u ∧
        p.caps.map (fun c => (c.lane, c.ptr)) = (lanesOf (s.iss st (rrr op f)).g).map (fun k => (k, st.pair k f.a.toNat)) ∧
        ∀ c ∈ p.caps, ∃ (g : Strand) (w : Forager), u.strand c.data.toNat = some g ∧ g.ctx = .F ∧ g.cx = st.cx ∧ g.wid = st.wid ∧ g.fg = some w ∧
          w.home = s.cur ∧ w.lane = c.lane ∧ w.first = f.d.toNat ∧ w.count = f.b.toNat % 8 + 1 ∧ w.hop = 0 ∧
          (g.lane 0).pc = (s.iss st (rrr op f)).pc + 4 ∧ (g.lane 0).preds = (st.lane c.lane).preds ∧
          ∀ n < 56, g.sreg n = if f.d.toNat ≤ n ∧ n < f.d.toNat + (f.b.toNat % 8 + 1) then (st.reg32 c.lane n).setWidth 64 else 0
    go (.forage f) 0xA0 ∧ go (.forageTry f) 0xA1

/-- R261, R266, R268, R271: a continuation that arrives takes a slot of its unit where one is free that no queued one may
take, and is refused with cause SLICE by a core that is not its function's, with cause QUEUE where no slot is free and 32 wait; the unit's oldest queued continuation that may take one
takes a slot that becomes free; a returning one gives its lane the carried registers, and the lane goes on after the `home`.
Model's own choices: notes/assumptions/29.md. -/
def Obligations.ForagerSteps : Prop :=
  ∀ (s : State) (j : Nat) (g : Strand) (f : Forager), s.strand j = some g → g.fg = some f → g.ctx = .F → g.lanes.length = 1 →
    let takers (u : Nat) : Option Nat := (s.arrivalsOf u).find? (fun k => match s.strand k with | some g => s.slotFree u (s.fnOf g) | none => false)
    (∀ i p c u st, s.departureOf j = some (i, p, c) → f.dest = some u → s.strand i = some st → i ≠ j → st.ctx = .L → st.lanes.length = 32 →
      c.lane < 32 → p.op = 0xA0 → (st.lane c.lane).flts = [] → (st.pends.flatMap Pend.flts) = [] → s.unitReset u = false → u ≠ s.homeUnit g →
      (1024 ≤ u ∨ s.coreOpen (s.fnOf g) u = true) → s.slotFree u (s.fnOf g) = true → takers u = none →
      ∃ (t : State) (g' st' : Strand) (f' : Forager), exec (.continuationArrival j) s = .next (t.settle i) ∧ t.strand j = some g' ∧ g'.fg = some f' ∧
        f'.unit = some u ∧ f'.slot.isSome ∧ f'.queued = false ∧ f'.dest = none ∧ f'.hop = f.hop + 1 ∧ (g'.lane 0).st = .ready ∧
        t.strand i = some st' ∧ (st'.lane c.lane).st = .away ∧ s.SameMemory t) ∧
    (∀ i p c u, s.departureOf j = some (i, p, c) → f.dest = some u → s.unitReset u = false → takers u = none →
      (u < 1024 → s.coreOpen (s.fnOf g) u = false →
        exec (.continuationArrival j) s = .next (((s.updFg j (fun f => { f with dest := none })).refuse i p c 2).settle i)) ∧
      (u ≠ s.homeUnit g → (1024 ≤ u ∨ s.coreOpen (s.fnOf g) u = true) → s.slotFree u (s.fnOf g) = false → 32 ≤ (s.arrivalsOf u).length →
        exec (.continuationArrival j) s = .next (((s.updFg j (fun f => { f with dest := none })).refuse i p c 0).settle i))) ∧
    (∀ u, takers u = some j →
      ∃ (t : State) (g' : Strand) (f' : Forager), exec (.arrivalQueueAccept u) s = .next t ∧ t.strand j = some g' ∧ g'.fg = some f' ∧
        f'.unit = some u ∧ f'.slot.isSome ∧ f'.queued = false ∧ (∀ k ∈ t.arrivalsOf u, k ≠ j) ∧ s.SameMemory t) ∧
    (∀ st, s.strand f.home = some st → f.home ≠ j → st.ctx = .L → st.lanes.length = 32 → st.vregs.length = 56 → f.lane < 32 → (st.lane f.lane).st = .away → (st.lane f.lane).flts = [] →
      f.first + f.count ≤ 56 → (g.lane 0).act = some .home → (g.lane 0).st = .ready → f.unit = none → f.dest = none → g.runEnd = false → f.hop ≠ 0 →
      ∃ (t : State) (st' : Strand), exec (.homeReturn j) s = .next (t.settle f.home) ∧ t.strand f.home = some st' ∧ t.strand j = none ∧
        (st'.lane f.lane).st = .ready ∧ (st'.lane f.lane).pc = (g.lane 0).pc + 4 ∧ (st'.lane f.lane).preds = (g.lane 0).preds ∧ s.SameMemory t ∧
        ∀ n < 56, st'.reg32 f.lane n = if f.first ≤ n ∧ n < f.first + f.count then (g.sreg n).setWidth 32 else (st.vreg n).read f.lane)

/-- R280 to R284, R289, R293 to R299: the matrix instructions in a context that holds its core's engine: `obres` and
`obrel` change the reservations, `mma`, `mconv`, `mzero`, `mld` and `mst` put one command at the end of the engine's
queue, `mwait` parks its lanes on the commands outstanding, `mstat` returns and clears the sticky status; a context that
does not hold the engine traps.
Model's own choices: notes/assumptions/26, 27.md. -/
def Obligations.MatrixIssue : Prop :=
  ∀ (s : State) (st : Strand) (c : Cx) (f : Rrr), s.cx st.cx = some c →
    let k := lowest st.group
    let core := s.core c.core
    let near (t : Strand) : Bool := s.homeUnit t == c.core
    let traps (i : Instr) (op code detail : Nat) : Prop := s.Ready st (rrr op f) →
      s.Does st i (rrr op f) ⟨s.trapLanes s.cur st.group code (s.iss st (rrr op f)).pc 4 detail, .nothing, [], false⟩
    let puts (i : Instr) (op : Nat) (q : MCmd → Prop) : Prop := s.Ready st (rrr op f) →
      core.mqueue.length < 8 → s.queuesBehind s.cur .matrix near = false →
      ∃ m : MCmd, m.op = op ∧ m.d = f.d.toNat ∧ m.x = f.x.toNat ∧ m.cx = st.cx ∧ m.strand = s.cur ∧ m.lane = k ∧ m.step = 0 ∧
        m.status = none ∧ m.ord = (st.lane k).ord ∧ q m ∧
        s.Does st i (rrr op f) ⟨{ s.setCore c.core (fun y => { y with mqueue := y.mqueue ++ [m] }) with nextId := s.nextId + 1 }, .nothing, [], false⟩
    let attr := (st.reg32 k f.d.toNat).toNat
    let rv : Resv := ⟨attr % 256, attr / 65536, (st.src k f.a).toNat, (st.src k f.b).toNat⟩
    -- obres
    (resvCause core.resv c.hdr.sram f.x.toNat attr rv.off rv.len = none →
      (core.holder = some st.cx → s.Ready st (rrr 0xD0 f) →
        s.Does st (.obres f) (rrr 0xD0 f) ⟨s.setCore c.core (fun y => { y with holder := some st.cx, resv := tset y.resv f.x.toNat rv }), .nothing, [], false⟩) ∧
      (core.holder = none → s.queuesBehind s.cur .holder near = false → s.Ready st (rrr 0xD0 f) →
        ∃ u : State, s.Does st (.obres f) (rrr 0xD0 f) ⟨u, .nothing, [], false⟩ ∧ (u.core c.core).holder = some st.cx ∧
          (u.core c.core).resv = tset core.resv f.x.toNat rv ∧ u.strands = s.strands)) ∧
    (∀ cause, core.holder = some st.cx → resvCause core.resv c.hdr.sram f.x.toNat attr rv.off rv.len = some cause → traps (.obres f) 0xD0 0x21 cause) ∧
    -- obrel
    (∀ r, core.holder = some st.cx → tget core.resv f.x.toNat = some r → s.Ready st (rrr 0xD1 f) →
      let waits := core.mqueue.any (s.readsRange c r) ||
        s.queuesBehind s.cur .holder (fun t => t.cx == st.cx && (st.waits == some .holder || t.stall.isNone))
      (waits = true → exec (.obrel f) s = .next (s.setStall s.cur .holder)) ∧
      (waits = false → ∃ u : State, s.Does st (.obrel f) (rrr 0xD1 f) ⟨u, .nothing, [], false⟩ ∧ s.SameMemory u ∧
        (u.core c.core).mqueue = core.mqueue ∧ (u.core c.core).resv = tdel core.resv f.x.toNat ∧
        ((tdel core.resv f.x.toNat ≠ [] ∨ core.mqueue ≠ []) → (u.core c.core).holder = some st.cx) ∧
        (tdel core.resv f.x.toNat = [] → core.mqueue = [] → (u.core c.core).holder = none))) ∧
    (tget core.resv f.x.toNat = none → traps (.obrel f) 0xD1 0x21 1) ∧
    -- commands
    (core.holder = some st.cx →
      (∀ a b, (st.ctx.wide = false ∨ (f.x.getLsbD 0 = false ∧ f.x.getLsbD 1 = false)) →
        readOperand (s.iss st (rrr 0xD2 f)) c core.resv f.a (f.x.getLsbD 0) = .inr a →
        readOperand (s.iss st (rrr 0xD2 f)) c core.resv f.b (f.x.getLsbD 1) = .inr b → pairCause a b f.d.toNat = none →
        puts (.mma f) 0xD2 (fun m => m.aBase = BitVec.ofNat 64 a.base ∧ m.aDesc = BitVec.ofNat 64 a.desc ∧ m.aTile = a.tile ∧ m.aFmt = a.fmt ∧
          m.bBase = BitVec.ofNat 64 b.base ∧ m.bDesc = BitVec.ofNat 64 b.desc ∧ m.bTile = b.tile ∧ m.bFmt = b.fmt)) ∧
      (∀ b, let pm := st.pair k (f.a.toNat + if st.ctx.wide then 1 else 2);
        (pm.toNat < 2 ^ 33) → readOperand (s.iss st (rrr 0xD3 f)) c core.resv f.b false = .inr b →
        ((f.d.getLsbD 2 && pm.getLsbD 32) || (f.d.getLsbD 3 && b.m128)) = false →
        puts (.mconv f) 0xD3 (fun m => m.aBase = st.pair k f.a.toNat ∧ m.aDesc = pm ∧ m.bBase = BitVec.ofNat 64 b.base ∧
          m.bDesc = BitVec.ofNat 64 b.desc ∧ m.bFmt = b.fmt ∧ m.shape = [])) ∧
      puts (.mzero f) 0xD4 (fun _ => True) ∧
      (let p := st.pair k f.a.toNat;
        spaceZeros (bits p.toNat 63 60) p.toNat = true → bits p.toNat 63 60 ≤ 2 → p.toNat % 16 = 0 → (st.src k f.b).toNat % 16 = 0 →
        puts (.mld f) 0xD5 (fun m => m.aBase = p ∧ m.aDesc = (st.src k f.b).setWidth 64) ∧
        puts (.mst f) 0xD6 (fun m => m.aBase = p ∧ m.aDesc = (st.src k f.b).setWidth 64))) ∧
    (core.holder ≠ some st.cx → (st.ctx.wide = false → traps (.mma f) 0xD2 0x21 0) ∧ traps (.mconv f) 0xD3 0x21 0 ∧ traps (.mzero f) 0xD4 0x21 0 ∧
      traps (.mld f) 0xD5 0x21 0 ∧ traps (.mst f) 0xD6 0x21 0) ∧
    -- mwait and mstat
    (s.Ready st (rrr 0xD7 f) →
      ∃ st', s.Does st (.mwait f) (rrr 0xD7 f) ⟨s.putStrand s.cur st', .nothing, [], true⟩ ∧ st' = { st with lanes := st'.lanes } ∧
        ∀ j < st.lanes.length, st'.lane j = if inMask st.group j = true
          then { st.lane j with act := some .mwait, waitCmds := (st'.lane j).waitCmds } else st.lane j) ∧
    (s.Ready st (rrr 0xD8 f) →
      let out := (s.cores.map (fun e => (e.2.mqueue.filter (fun m => m.cx == st.cx)).length)).sum
      let hold := if core.holder = some st.cx then 1 else 0
      ∃ st', s.Does st (.mstat f) (rrr 0xD8 f) ⟨(s.putStrand s.cur st').updCx st.cx (fun c => { c with mstk := false, mstkcode := 0, mfstep := 0 }),
          .reg f.d.toNat, [], false⟩ ∧
        st.Wrote32 st' st.group f.d.toNat (fun _ =>
          BitVec.ofNat 32 (out * 2 ^ 28 + c.mstkcode * 2 ^ 24 + hold * 2 ^ 23 + c.mstk.toNat * 2 ^ 22 + c.mfstep % 65536)) ∧
        (st.ctx = .L → st.group = st.wholeMask → (st'.vreg f.d.toNat).tag = 0)) ∧
    ((f.a ≠ 0 ∨ f.b ≠ 0 ∨ f.x ≠ 0) → decodeWord (rrrWord 0xD8 f) = .error .illRes)

/-- R288 to R292, R295 to R299: a step of the command at the front of the engine's queue rounds each accumulator of its
subtile once from the exact sum of the accumulator and the step's products; an operand that cannot be read gives status 4;
an `mconv` first reads and checks its shape record (status 8); a command that is done, or that has a status, leaves the
queue, and the first status that is not OK stays in the context's sticky fields.
Model's own choices: notes/assumptions/27, 28.md. -/
def Obligations.MatrixSteps : Prop :=
  ∀ (s : State) (core : Nat) (m : MCmd) (ms : List MCmd) (c : Cx), (s.core core).mqueue = m :: ms → s.cx m.cx = some c →
    s.matrixGo c m = true →
    let t := m.tiles.getD (m.step / m.perTile) 0
    let sub := m.step % m.perTile
    let K := depthOf m.bFmt
    let aRow (i : Nat) : Nat := if m.m128 then 64 * (t / 2) + i else i
    let bRow (j : Nat) : Nat := if m.n128 then 64 * (t % 2) + j else j
    let acc (i j : Nat) : FpNum := fp32.val (leNat (s.homeRead (accLoc core (m.d % 4) (64 * (t / 2) + i) (64 * (t % 2) + j)) 4))
    let front (m' : MCmd) (u : State) : Prop := (u.core core).mqueue = m' :: ms ∧ u.strands = s.strands
    -- steps: the command sees what it reads of the holder's allotment and of scale memory
    let seen (s : State) (a n : Nat) : Option State := s.lookOver m.ord 0 .matrix (core / 16) a n
    (m.status = none → (m.op = 0xD2 ∨ m.op = 0xD3 ∧ m.shape ≠ []) → m.step < m.steps →
      (seen s (sramLoc core c.sramBase) c.hdr.sram = none → exec (.matrixStep core) s = .next s) ∧
      (∀ s1, seen s (sramLoc core c.sramBase) c.hdr.sram = some s1 →
        (seen s1 (scaleLoc core 0) 65536 = none → exec (.matrixStep core) s = .next s) ∧
        (∀ s2, seen s1 (scaleLoc core 0) 65536 = some s2 →
          (∀ rows, s2.stepVals core c m t sub = some rows →
            ∃ u, exec (.matrixStep core) s = .next u ∧ front { m with step := m.step + 1 } u ∧ u.mem = (s2.putTile core (m.d % 4) t rows).mem) ∧
          (s2.stepVals core c m t sub = none →
            ∃ u, exec (.matrixStep core) s = .next u ∧ front { m with status := some 4 } u ∧ s2.SameMemory u)))) ∧
    (∀ a b : Nat → Nat → FpNum, m.op = 0xD2 →
      (∀ i < 64, ∀ k < K, s.opVal core c m m.aTile m.aBase.toNat m.aDesc.toNat m.aFmt (aRow i) (K * sub + k) = some (a i k)) →
      (∀ j < 64, ∀ k < K, s.opVal core c m m.bTile m.bBase.toNat m.bDesc.toNat m.bFmt (bRow j) (K * sub + k) = some (b j k)) →
      ∃ rows : List (List Nat), s.stepVals core c m t sub = some rows ∧ rows.length = 64 ∧ ∀ i < 64, (rows.getD i []).length = 64 ∧ ∀ j < 64,
        (rows.getD i []).getD j 0 = fp32.round 0 (sumNum 0 (acc i j :: (List.range K).map (fun k => (a i k).mul (b j k))))) ∧
    -- the shape record
    (∀ s1 b, m.status = none → m.op = 0xD3 → m.shape = [] → engPtrOk m.aBase 64 = true → bits m.aBase.toNat 63 60 ≤ 2 → m.aBase.toNat % 64 = 0 →
      s.mread core m c.fn m.aBase 0 64 = (s1, .ok b) →
      (∀ o r, shapeOk c (s1.core core).resv m b = some (o, r) → exec (.matrixStep core) s =
        .next (s1.updFront core (fun m => { m with shape := toLE 8 (2 * 2 ^ 60 + 2 ^ 41 + o) ++ b.drop 8, aFmt := r.fmt }))) ∧
      (shapeOk c (s1.core core).resv m b = none → exec (.matrixStep core) s = .next (s1.updFront core (fun m => { m with status := some 8 })))) ∧
    -- the end
    (∀ x, m.status = some x → exec (.matrixCommandEnd core) s = .next (s.mEnd core x)) ∧
    (m.status = none → m.op = 0xD2 → m.steps ≤ m.step → exec (.matrixCommandEnd core) s = .next (s.mEnd core 0)) ∧
    (m.status = none → m.op = 0xD3 → m.shape ≠ [] → m.steps ≤ m.step → exec (.matrixCommandEnd core) s = .next (s.mEnd core 0)) ∧
    (m.status = none → m.op = 0xD4 → s.applied = [] →
      ∃ u : State, exec (.matrixCommandEnd core) s = .next (u.mEnd core 0) ∧ u = { s with mem := u.mem } ∧
        ∀ a, mget u.mem a = if (List.range m.region.2.2).any (fun i => let w := accLoc core (m.d % 4) (m.region.1 + i) m.region.2.1
            decide (w ≤ a) && decide (a < w + 4 * m.region.2.2)) then 0 else mget s.mem a) ∧
    (∀ s1 : State, m.status = none → (m.op = 0xD5 ∨ m.op = 0xD6) →
      (s.mrows core c.fn m (m.region.2.2 - m.step) m.step = (s1, .ok ()) → exec (.matrixCommandEnd core) s = .next (s1.mEnd core 0)) ∧
      (∀ x, s.mrows core c.fn m (m.region.2.2 - m.step) m.step = (s1, .bad x) → exec (.matrixCommandEnd core) s = .next (s1.mEnd core x))) ∧
    (∀ x, (∀ i ∈ c.strands, ∀ st, s.strand i = some st → ∀ l ∈ st.lanes, l.st ≠ .mwait) →
      ∃ u c', s.mEnd core x = u ∧ (u.core core).mqueue = ms ∧ u.cx m.cx = some c' ∧ s.SameMemory u ∧
        c'.mstk = (c.mstk || x != 0) ∧ c'.mstkcode = (if c.mstkcode = 0 then x else c.mstkcode) ∧
        c'.werr = (if c.werr = 0 then x else c.werr) ∧
        c'.mwids = addWrites c.mwids m.wids) ∧
    (∀ i st k, s.strand i = some st → st.cx = m.cx → k < st.lanes.length → k < 32 → (st.lane k).st = .mwait → c.werr = 0 →
      (st.lane k).waitCmds.any (fun id => s.cores.any (fun e => e.2.mqueue.any (fun m => m.id == id))) = false →
      ∃ st', (s.evalMwait i).strand i = some st' ∧ (st'.lane k).st = .ready ∧ (st'.lane k).pc = (st.lane k).pc + 4 ∧
        (st'.lane k).ord.hist = addWrites (st.lane k).ord.hist c.mwids)

/-- R343, R349 to R351, R356, R359, R360: the instructions of a comb instance: `cmode` sets the banks the following
commands go to; a command goes to the end of every selected bank's buffer; `csync` goes on once none is outstanding and
reports the first status; `cstat` returns the sticky status and clears it. -/
def Obligations.CombIssue : Prop :=
  ∀ (s : State) (st : Strand) (i : Inst) (f : Rrr), s.instOf st = some i → st.ctx = .S →
    let a := st.src 0 f.a
    let p := st.pair 0 f.a.toNat
    let sync (i : Inst) : Inst := { i with stk := false, stkcode := 0, bank := 0, pch := 0 }
    let puts (ins : Instr) (op : Nat) (va vb : W64) : Prop := s.Ready st (rrr op f) →
      (∀ k ∈ i.banks, (s.bank i.modeChan k).buf.length < 64) → s.chanReset i.modeChan = false →
      s.queuesBehind s.cur .comb (fun t => (s.instOf t).any (fun j => j.modeChan == i.modeChan &&
        j.banks.any (fun k => i.banks.contains k && decide (63 ≤ (s.bank i.modeChan k).buf.length)))) = false →
      ∃ (u : State) (q : CCmd), s.Does st ins (rrr op f) ⟨u, .nothing, [], false⟩ ∧ q.id = s.nextId ∧ q.op = op ∧ q.inst = st.cx ∧
        q.fn = s.fnOf st ∧ q.aVal = va ∧ q.bVal = vb ∧ q.f = (rrr op f).f ∧ q.ord = (st.lane 0).ord ∧ u.strands = s.strands ∧ s.SameMemory u ∧
        (u.instOf st).map Inst.outCmds = some (i.outCmds ++ [q.id]) ∧
        ∀ k, (u.bank i.modeChan k).buf = if k ∈ i.banks then (s.bank i.modeChan k).buf ++ [q] else (s.bank i.modeChan k).buf
    let space := bits p.toNat 63 60
    let there : Prop := (space = 0 ∨ space = 5) ∧ (locate .S p 0 false).isRight
    let near : Prop := space = 0 ∨ bits p.toNat 59 56 = (s.unitOf st - 1024) / 16
    let traps (ins : Instr) (op code : Nat) (addr : W64 := 0) : Prop := s.Ready st (rrr op f) →
      s.Does st ins (rrr op f) ⟨s.trapLanes s.cur st.group code (s.iss st (rrr op f)).pc 4 0 (fun _ => addr), .nothing, [], false⟩
    -- a command with a source pointer: the traps of the pointer and the stride, else the command
    let sourced (ins : Instr) (op : Nat) (stride : Nat) (vb : W64) : Prop :=
      (¬ there → traps ins op 0x07) ∧ (there → ¬ near → traps ins op 0x07 p) ∧
      (there → near → (p.toNat % 64 ≠ 0 ∨ stride % 64 ≠ 0) → traps ins op 0x06 p) ∧
      (there → near → p.toNat % 64 = 0 → stride % 64 = 0 → puts ins op p vb)
    -- the mode
    (let unit := s.unitOf st
      let chan := 64 * ((unit - 1024) / 16) + a.toNat % 64
      (bits a.toNat 5 2 = unit % 16 → s.chanOpen (s.fnOf st) chan = true → s.Ready st (rrr 0xE0 f) →
        s.Does st (.cmode f) (rrr 0xE0 f) ⟨s.updInst st.cx (fun i => { i with
          all := f.x.getLsbD 0, modeChan := chan, modeBank := if f.x.getLsbD 0 then 0 else bits a.toNat 9 6 }), .nothing, [], false⟩) ∧
      (bits a.toNat 5 2 ≠ unit % 16 → traps (.cmode f) 0xE0 0x07) ∧
      (bits a.toNat 5 2 = unit % 16 → s.chanOpen (s.fnOf st) chan = false → traps (.cmode f) 0xE0 0x0B)) ∧
    -- commands
    sourced (.cbcast f) 0xE1 (st.src 0 f.b).toNat ((st.src 0 f.b).setWidth 64) ∧ sourced (.ctblWr f) 0xEA 0 0 ∧
    (a.getLsbD 16 = false → puts (.cldRow f) 0xE2 (a.setWidth 64) 0 ∧ puts (.cstRow f) 0xE3 (a.setWidth 64) 0 ∧ puts (.cwr f) 0xE7 (a.setWidth 64) 0) ∧
    (a.getLsbD 16 = true → traps (.cldRow f) 0xE2 0x06 ∧ traps (.cstRow f) 0xE3 0x06 ∧ traps (.cwr f) 0xE7 0x06) ∧
    puts (.cmac f) 0xE4 (a.setWidth 64) 0 ∧ puts (.cdot f) 0xE5 (a.setWidth 64) 0 ∧ puts (.cattn f) 0xE9 (a.setWidth 64) (st.pair 0 f.b.toNat) ∧
    puts (.cred f) 0xE6 0 0 ∧ puts (.clut f) 0xE8 0 0 ∧ puts (.ctblSwap f) 0xEB 0 0 ∧
    -- csync and cstat
    (s.Ready st (rrr 0xEC f) → i.outCmds ≠ [] → exec (.csync f) s = .next (s.setStall s.cur .fence)) ∧
    (s.Ready st (rrr 0xEC f) → i.outCmds = [] → ∃ u : State, u.insts = tset s.insts st.cx { (if i.stk then sync i else i) with wids := [] } ∧ s.SameMemory u ∧
      (i.stk = false → s.Does st (.csync f) (rrr 0xEC f) ⟨u, .nothing, [], false⟩) ∧
      (i.stk = true → s.Does st (.csync f) (rrr 0xEC f) ⟨u.trapLanes s.cur st.group 0x22 (s.iss st (rrr 0xEC f)).pc 4
        (i.stkcode + 48 + i.bank * 256 + i.pch * 65536), .nothing, [], false⟩)) ∧
    (s.Ready st (rrr 0xED f) → ∃ st', s.Does st (.cstat f) (rrr 0xED f) ⟨(s.putStrand s.cur st').updInst st.cx sync, .reg f.d.toNat, [], false⟩ ∧
      st.Wrote64 st' st.group f.d.toNat (fun _ => BitVec.ofNat 64 (min 255 i.outCmds.length * 2 ^ 24 +
        (if i.stk then i.stkcode * 2 ^ 20 + 2 ^ 19 + i.bank * 2 ^ 14 + i.pch * 2 ^ 8 else 0) +
        (if (List.range 16).any (fun k => (s.bank i.chan k).faulted != 0) then 2 ^ 18 else 0))))

/-- R341, R344, R345: a wave runs the oldest command of a pseudo-channel in its lowest EFF banks that still hold it; in
each bank a command that succeeds commits the bank's registers and leaves the buffer, one that fails leaves the bank as
it was, and the first status of an instance stays. R337, R338: an instance starts at its kernel's entry with its
arguments, index and channel.
Model's own choices: notes/assumptions/31.md. -/
def Obligations.CombSteps : Prop :=
  ∀ (s : State) (chan : Nat),
    (∀ c ks, s.combOldest chan = some (c, ks) → s.mg.tripped = false → s.fnLive c.fn = true →
      (c.eff ≠ none ∨ ∀ i, tget s.insts c.inst = some i → s.acqPending i.strand 0 .comb c.id = false) →
      (c.eff = none → s.closing 3 chan = true → exec (.combWaveStart chan) s = .next (ks.foldl (fun s k => s.combEnd chan k c 3) s)) ∧
      ((c.eff ≠ none ∨ s.closing 3 chan = false) →
      let eff := c.eff.getD (max 1 (s.effBanks (chan / 64)))
      ∃ u : State, exec (.combWaveStart chan) s =
          .next (((ks.filter (fun k => k / eff == ks.headD 0 / eff)).foldl (fun s k => s.combBank chan k c.id) u).fold) ∧
        u = { s with banks := u.banks } ∧
        ∀ k, (u.bank chan k).buf = if k ∈ ks then (s.bank chan k).buf.map (fun e => if e.id = c.id then { e with eff := some eff } else e)
          else (s.bank chan k).buf)) ∧
    (∀ k (c : CCmd), (s.bank chan k).buf.find? (fun e => e.id == c.id) = some c →
      c.parity = true ∨ c.bad = true ∧ c.op ∈ [0xE4, 0xE5, 0xE6, 0xE9] → s.combBank chan k c.id = s.combEnd chan k c 4) ∧
    (∀ k (c : CCmd), (s.bank chan k).buf.find? (fun e => e.id == c.id) = some c → c.parity = false → c.bad = false →
      (s.chanSlice chan ≠ c.fn → s.combBank chan k c.id = s.combEnd chan k c 3) ∧
      (s.chanSlice chan = c.fn → s.combSees c chan k = none → s.combBank chan k c.id = s) ∧
      (∀ s0, s.chanSlice chan = c.fn → s.combSees c chan k = some s0 →
        (∀ s1 b, s0.combRun chan k c (s0.bank chan k) = (s1, .commit b none) → s.combBank chan k c.id = (s1.setBank chan k (fun _ => b)).combEnd chan k c 0) ∧
        (∀ s1 b a bs, s0.combRun chan k c (s0.bank chan k) = (s1, .commit b (some (a, bs))) →
          s.combBank chan k c.id = ((s1.setBank chan k (fun _ => b)).combWrite c chan k a bs).combEnd chan k c 0) ∧
        (∀ s1 x, s0.combRun chan k c (s0.bank chan k) = (s1, .fail x) → s.combBank chan k c.id = s1.combEnd chan k c x) ∧
        (∀ s1, s0.combRun chan k c (s0.bank chan k) = (s1, .wait) → s.combBank chan k c.id = s1))) ∧
    (∀ k (c : CCmd) (i : Inst) (x : Nat), tget s.insts c.inst = some i →
      ∃ (u : State) (i' : Inst), (s.combEnd chan k c x = u ∨ s.combEnd chan k c x = u.settle i.strand) ∧ tget u.insts c.inst = some i' ∧ (u.bank chan k).buf = (s.bank chan k).buf.filter (fun e => e.id != c.id) ∧
        i'.stk = (i.stk || x != 0) ∧ i'.stkcode = (if i.stk = false ∧ x ≠ 0 then x else i.stkcode) ∧ s.SameMemory u) ∧
    -- what a command computes in one bank
    (∀ k (c : CCmd) (b : Bank), b.faulted = 0 →
      let row := rowLoc chan (bits64 c.aVal 15 0) k + 32 * bits64 c.aVal 20 16
      let x := c.f.x.toNat
      let d := c.f.d.toNat
      (∀ bs, s.rowRead c chan k (bits64 c.aVal 15 0) (bits64 c.aVal 20 16) 2 = some bs → c.op = 0xE2 →
        s.combRun chan k c b = (s, .commit { b with x := b.x.set d (wordsLE bs) } none)) ∧
      (c.op = 0xE3 → s.rowNoWrite row = false → s.exhausted row = false → s.combRun chan k c b = (s, .commit b (some (row, (b.x.getD d []).flatMap (fun w => toLE 4 w.toNat))))) ∧
      (c.op = 0xE7 → s.rowNoWrite row = false → s.exhausted row = false → s.combRun chan k c b = (s, .commit b (some (row, (b.a.getD d []).flatMap (fun w => toLE 4 w.toNat))))) ∧
      (∀ bs, s.rowRead c chan k (bits64 c.aVal 15 0) (bits64 c.aVal 20 16) 1 = some bs → c.op = 0xE4 →
        s.combRun chan k c b = (s, .commit { b with a := b.a.set d ((List.range 16).map (fun l =>
          w32 (cmacLane (bit x 0) (bit x 1) (b.x.getD c.f.b.toNat []) bs (if bit x 2 then 0 else ((b.a.getD d []).getD l 0).toNat) l))) } none)) ∧
      (∀ bs, s.rowRead c chan k (bits64 c.aVal 15 0) (bits64 c.aVal 20 16) 1 = some bs → c.op = 0xE5 →
        let l := bits64 c.aVal 27 24
        s.combRun chan k c b = (s, .commit { b with a := b.a.set d ((b.a.getD d []).set l
          (w32 (cdotAll (bit x 0) (bit x 1) (b.x.getD c.f.b.toNat []) bs (if bit x 2 then 0 else ((b.a.getD d []).getD l 0).toNat)))) } none)) ∧
      (∀ s1 bs, s.combSrc c chan k (k * c.bVal.toNat) 64 = (s1, .ok bs) → c.op = 0xE1 →
        s.combRun chan k c b = (s1, .commit { b with x := b.x.set d (wordsLE bs) } none)) ∧
      (∀ s1 bs, s.combSrc c chan k 0 1024 = (s1, .ok bs) → c.op = 0xEA →
        s.combRun chan k c b = (s1, .commit { b with shadow := wordsLE bs } none)) ∧
      (c.op = 0xE8 → s.combRun chan k c b = (s, .commit { b with x := b.x.set d ((b.x.getD c.f.a.toNat []).map (fun w =>
        let v := b.active.getD (w.toNat % 256) 0
        if x = 0 then v else w32 ((fmt16 (x == 2)).sat 0 (fp32.val v.toNat)))) } none)) ∧
      (c.op = 0xE6 → s.combRun chan k c b = (s, .commit { b with
        a := b.a.set d ((List.replicate 16 0).set 0 (w32 (credOf (bit x 0) (b.a.getD c.f.a.toNat [])))) } none)) ∧
      (c.op = 0xEB → s.combRun chan k c b = (s, .commit { b with active := b.shadow, shadow := b.active } none))) ∧
    -- the start of an instance
    (∀ node n idx, s.nodePick = some (node, n) → (s.channels n.slice)[idx]? = some chan → n.kind = 2 →
      idx ∉ n.completed → s.cxs.any (fun e => e.2.node == node && e.2.wg == idx) = false → s.chanOpen n.slice chan = true →
      s.chanBusy chan = false → s.chanReset chan = false → s.keptFor (2048 + chan) 0 = false →
      ∃ (t : State) (st : Strand) (i : Inst), exec (.combInstanceStart node idx) s = .next t ∧ t.strand (s.nextId + 1) = some st ∧
        tget t.insts s.nextId = some i ∧ i.chan = chan ∧ i.all = true ∧ i.outCmds = [] ∧ i.stk = false ∧ st.ctx = .S ∧ st.cx = s.nextId ∧
        (st.lane 0).pc = BitVec.ofNat 48 (n.body.toNat + n.hdr.combEnt) ∧ st.sreg 0 = n.args ∧ st.sreg 1 = BitVec.ofNat 64 idx ∧
        st.sreg 2 = BitVec.ofNat 64 (chan % 64) ∧ s.SameMemory t ∧
        (tget t.nodes node).map Node.st = some (if ∀ j < n.nwg, t.admitted node n j = true then .running else n.st))

/-- R332, R333, R334, R324: `node.spawn`, `grp`, `sysrd` and `syswr` where they complete, and the traps of a system
register access that is not allowed. -/
def Obligations.SystemInstructions : Prop :=
  ∀ (s : State) (st : Strand) (c : Cx) (f : Rrr), s.cx st.cx = some c →
    let k0 := lowest st.group
    -- node.spawn
    (let p := (st.pair 0 f.a.toNat).toNat
      let n := (st.src 0 f.b).toNat % 65536
      let order : Ord := { Ord.empty with hist := (st.lane 0).ord.hist }
      let unapplied := s.unapplied (fun id => (st.lane 0).ord.hist.any (·.1 == id))
      let named : Prop := bits p 63 60 = 0 ∧ p % 8 = 0 ∧ 1 ≤ n ∧ n ≤ 4096
      let gives (u : State) (v : Nat) : Prop := s.Ready st (rrr 0xF0 f) →
        s.Does st (.nodeSpawn f) (rrr 0xF0 f) ⟨u.updStrand s.cur (fun t => t.write32 st.group f.d.toNat (fun _ => BitVec.ofNat 32 v) none),
          .reg f.d.toNat, [], false⟩
      (¬ named → gives s 1) ∧
      (named → s.Ready st (rrr 0xF0 f) →
        (s.intakeFree c.fn = false → exec (.nodeSpawn f) s = .next (s.setStall s.cur .intake)) ∧
        (s.intakeFree c.fn = true → unapplied = true → exec (.nodeSpawn f) s = .next (s.setStall s.cur .fence)) ∧
        (∀ t, s.intakeFree c.fn = true → unapplied = false → (wkSpawn c.fn p n order).run.run s = (none, t) →
          exec (.nodeSpawn f) s = .next ((s.takeWalks t).setStall s.cur .fetch))) ∧
      (named → s.intakeFree c.fn = true → unapplied = false →
        (∀ u e, (wkRoots c.fn p n).run.run s = (some (.error e), u) → gives u 2) ∧
        (∀ t u ps ids, (wkRoots c.fn p n).run.run s = (some (.ok ps), t) →
          (wkSubmit c.fn { order := order } ps).run.run t = (some ids, u) → gives u 0))) ∧
    -- grp
    (let h : Hd := { rrr 0xF1 f with ok := (rrr 0xF1 f).ok && decide (f.a.toNat % 4 < (s.hdrOf st).groups) }
      let gs := ((tget s.nodes c.node).map Node.groups).getD []
      let gives (u : State) (v : Word) : Prop := s.Ready st h → s.Does st (.grp f) h
        ⟨u.updStrand s.cur (fun t => t.write32 st.group f.d.toNat (fun _ => v) (some (.u v))), .reg f.d.toNat, [], false⟩
      let misuse : Prop := s.Ready st h → s.Does st (.grp f) h ⟨s.trapLanes s.cur st.group 0x20 (s.iss st h).pc 4 0, .nothing, [], false⟩
      ((slotsOf gs c.wg)[f.a.toNat % 4]? = none → (f.x.toNat < 5 → gives s 0xFFFFFFFF) ∧ (f.x.toNat = 5 ∨ f.x.toNat = 6 → misuse)) ∧
      (∀ e g, (slotsOf gs c.wg)[f.a.toNat % 4]? = some e → gs[e]? = some g →
        (f.x.toNat = 0 → gives s (BitVec.ofNat 32 e)) ∧
        (f.x.toNat = 1 → gives s (BitVec.ofNat 32 (g.members.findIdx (· == c.wg)))) ∧
        (f.x.toNat = 2 → gives s (BitVec.ofNat 32 g.count)) ∧
        (f.x.toNat = 3 → gives s (BitVec.ofNat 32 g.kind)) ∧
        (∀ w, f.x.toNat = 4 → g.members[(st.src k0 f.b).toNat]? = some w → gives s (BitVec.ofNat 32 w)) ∧
        (f.x.toNat = 4 → g.members[(st.src k0 f.b).toNat]? = none → gives s 0xFFFFFFFF) ∧
        (f.x.toNat = 5 → (g.kind ≠ 0 ∨ c.wg ∈ g.arrived) → misuse) ∧
        (f.x.toNat = 5 → g.kind = 0 → c.wg ∉ g.arrived →
          let h := (lanesOf st.group).foldl (fun h k => addWrites h (onPaths (st.lane k).ord.hist 1)) g.next
          let g' : Group := if g.arrived.length + 1 = g.count
            then { g with arrived := [], gen := g.gen + 1, carry := addWrites g.carry h, next := [] }
            else { g with arrived := c.wg :: g.arrived, next := h }
          gives (s.updNode c.node (fun n => { n with groups := n.groups.set e g' })) g.gen) ∧
        (f.x.toNat = 6 → g.kind ≠ 0 → misuse) ∧
        (f.x.toNat = 6 → g.kind = 0 → gives (s.updStrand s.cur (fun t => t.acquire st.group g.carry 1)) g.gen))) ∧
    -- sysrd and syswr
    (let n := f.a.toNat * 64 + f.b.toNat
      let v := (st.pair 0 f.d.toNat).toNat
      let traps (i : Instr) (op code detail : Nat) : Prop := s.Ready st (sysHd op f) →
        s.Does st i (sysHd op f) ⟨s.trapLanes s.cur st.group code (s.iss st (sysHd op f)).pc 4 detail, .nothing, [], false⟩
      (s.privileged st = true → s.Ready st (sysHd 0xF2 f) → ∃ st', s.Does st (.sysrd f) (sysHd 0xF2 f) ⟨s.putStrand s.cur st', .reg f.d.toNat, [], false⟩ ∧
        st.Wrote64 st' st.group f.d.toNat (fun _ => BitVec.ofNat 64 (s.sysRead c.fn n))) ∧
      (s.privileged st = false → traps (.sysrd f) 0xF2 9 4 ∧ traps (.syswr f) 0xF3 9 4) ∧
      (sysPf n = true → c.fn ≠ 0 → traps (.syswr f) 0xF3 9 4) ∧
      (s.privileged st = true → (sysPf n = false ∨ c.fn = 0) → s.workDone s.cur 0 1 s.nextId = true →
        (∀ u, s.sysWrite c.fn n v = .done u → s.Ready st (sysHd 0xF3 f) → s.Does st (.syswr f) (sysHd 0xF3 f) ⟨u, .nothing, [], false⟩) ∧
        (∀ code detail, s.sysWrite c.fn n v = .trap code detail → traps (.syswr f) 0xF3 code detail)) ∧
      (s.privileged st = true → (sysPf n = false ∨ c.fn = 0) → (s.workDone s.cur 0 1 s.nextId = false ∨ s.sysWrite c.fn n v = .wait) →
        s.Ready st (sysHd 0xF3 f) → exec (.syswr f) s = .next (s.setStall s.cur .fence)))

/-- R13, R181, R187, R323, R325, R334, R340, R390: what a write to a system register does and what a read of it then
gives; the invalidations; the fault queue's writes and acknowledgements; the register window of a function.
Model's own choices: notes/assumptions/32, 33, 59.md. -/
def Obligations.SystemRegisterSteps : Prop :=
  ∀ (s : State) (fn : Nat),
    -- plain registers, through SYSREG_WRITE and through the window
    (∀ n ∈ [0x000, 0x003, 0x010, 0x012, 0x014, 0x016, 0x019, 0x01B, 0x01C, 0x130, 0x131, 0x132, 0x135], ∀ v : W64,
      let u0 := s.setFunc fn (fun x => x.setReg n (v.toNat &&& sysMask n))
      let u := if n = 0x000 ∨ n = 0x014 ∨ n = 0x016 then u0.setFunc fn (fun x => { x with fqStuck := false }) else u0
      exec (.sysregWrite fn n v) s = .next u ∧ u.sysRead fn n = v.toNat &&& sysMask n ∧
      (∀ t, s.mmioOk fn t = true → exec (.mmioWrite fn (8 * n) v t) s = .next u)) ∧
    (∀ stack < 16, ∀ v : W64, 1 ≤ v.toNat % 32 → v.toNat % 32 ≤ 16 →
      ∃ t, exec (.banklimWrite 0 stack v) s = .next t ∧ t.sysRead fn (0x110 + stack) % 32 = v.toNat % 32 ∧ t = { s with mg := t.mg }) ∧
    (∀ stack v, exec (.banklimWrite (fn + 1) stack v) s = .next s) ∧
    -- invalidation
    (s.drained fn = true →
      (∀ va : Va, let page := va.toNat / 65536 * 65536
        ∃ t, exec (.tlbinvPage fn va) s = .next t ∧ (∀ e ∈ t.dies, ∀ b ∈ e.2.tlb, b.covers fn page = false ∧ (b.fn = fn → b.ats = none)) ∧
          (∀ e ∈ t.cores, ∀ b ∈ e.2.tlb, b.covers fn page = false) ∧
          (∀ e ∈ s.dies, ∀ b ∈ e.2.tlb, b.covers fn page = false → (b.fn ≠ fn ∨ b.ats = none) → ∃ e' ∈ t.dies, e'.1 = e.1 ∧ b ∈ e'.2.tlb) ∧ s.SameMemory t ∧ t.strands = s.strands) ∧
      (∃ t, exec (.tlbinvFunction fn) s = .next t ∧ (∀ e ∈ t.dies, (∀ b ∈ e.2.tlb, b.fn ≠ fn) ∧ ∀ w ∈ e.2.wcache, w.fn ≠ fn) ∧
        (∀ e ∈ t.cores, ∀ b ∈ e.2.tlb, b.fn ≠ fn) ∧ s.SameMemory t ∧ t.strands = s.strands) ∧
      (∃ t, exec (.tlbinvWalkerCache fn) s = .next t ∧ (∀ e ∈ t.dies, ∀ w ∈ e.2.wcache, w.fn ≠ fn) ∧
        t.cores.map (fun e => e.2.tlb) = s.cores.map (fun e => e.2.tlb) ∧ s.SameMemory t ∧ t.strands = s.strands)) ∧
    (∀ v : W64, let g := v.toNat / 65536 % 2 ^ 24
      s.chanSlice (chanOf (g * 65536)) = fn →
      ∃ t, exec (.attrReset fn v) s = .next t ∧ (t.granule g).attr = none ∧ (t.granule g).lost = false ∧ (∀ p ∈ t.poison, p / 2048 ≠ g) ∧
        (Memory.wf s.mem = true → ∀ a, mget t.mem a = if a / 65536 = g then 0 else mget s.mem a)) ∧
    -- the fault queue
    (∀ r rs i k ws, (s.func fn).fqWait = r :: rs → (s.func fn).fqWaitOf = some (i, k) :: ws →
      let n := (s.func fn).reg 0x015
      let t := (s.func fn).fqTail
      let va := (s.func fn).reg 0x014 + 64 * t
      (s.func fn).fqStuck = false → 2 ≤ n → (t + 1) % n ≠ (s.func fn).reg 0x016 →
      (∀ s1 x a, s.fnWrite 80 fn va (r.bytes ((s.slice fn).prot && !s.fqPrivate fn ((s.func fn).reg 0x014))) = (s1, .stop x a) →
        exec (.faultQueueWrite fn) s = .next (s1.setFunc fn (fun x => { x with fqStuck := true }))) ∧
      ∀ s1 x, s.fnWrite 80 fn va (r.bytes ((s.slice fn).prot && !s.fqPrivate fn ((s.func fn).reg 0x014))) = (s1, .ok x) →
      ∃ u : State, exec (.faultQueueWrite fn) s = .next (u.cause fn 1) ∧ (u.func fn).fqTail = (t + 1) % n ∧ (u.func fn).fqWait = rs ∧ u.mem = s1.mem ∧
        u.strands = (s1.updStrand i (fun st => st.setLane k (fun l => { l with posted := l.posted ++ [t] }))).strands) ∧
    (∀ r rs ws, (s.func fn).fqStuck = true → (s.func fn).fqWait = r :: rs → (s.func fn).fqWaitOf = ws → exec (.faultQueueWrite fn) s = .next s) ∧
    (∀ idx i k r, tget (s.func fn).fqPosted idx = some (i, k, r) →
      (r.recov = true → ∃ u : State, exec (.fqackRetry fn idx) s = .next (u.settle i) ∧ tget (u.func fn).fqPosted idx = none ∧
          (u.func fn).replays = (s.func fn).replays.map (fun e => if e.of i k r then { e with go := true } else e) ∧
          u.strands = (s.updStrand i (fun st => st.setLane k (fun l => { l with posted := l.posted.erase idx }))).strands) ∧
      (r.recov = false → exec (.fqackRetry fn idx) s = .next s) ∧
      (∃ u : State, exec (.fqackSkip fn idx) s = .next (u.settle i) ∧ tget (u.func fn).fqPosted idx = none ∧
        (u.func fn).replays = (s.func fn).replays.eraseP (fun e => e.of i k r) ∧
        u.strands = (s.updStrand i (fun st => st.setLane k (fun l => { l with
          pc := if l.st = .fault then r.resume else l.pc, posted := l.posted.erase idx }))).strands) ∧
      (∀ st c, s.strand i = some st → s.cx st.cx = some c →
        exec (.fqackKill fn idx) s = .next ((s.setFunc fn (fun x => { x with fqPosted := tdel x.fqPosted idx })).killNode c.node 7))) ∧
    -- the register window
    (∀ t, s.mmioOk fn t = true →
      (∀ v : Word, exec (.doorbell fn v t) s = .next (s.setFunc fn (fun x => x.setReg 0x01A (v.toNat % 65536 * 2 ^ 32 + x.reg 0x01A % 65536)))) ∧
      (∀ v : Word, exec (.intcauseClear fn v t) s = .next (s.setFunc fn (fun x => { x with intcause := x.intcause &&& ~~~(v.setWidth 4) }))) ∧
      (∀ n, n < 0x200 → sysKnown n = true → (sysPf n = false ∨ fn = 0) →
        exec (.mmioRead fn (8 * n) t) s = .next (s.send (.mmioData (BitVec.ofNat 64 (s.sysRead fn n)))))) ∧
    (∀ t, s.mmioOk fn t = false → ∀ off n, ∃ u : State, exec (.mmioRead fn off t) s = .next (u.send .mmioUr) ∧ u = { s with mg := u.mg } ∧
      exec (.mmioWrite fn off n t) s = .next (u.send .mmioDropped) ∧ exec (.doorbell fn (n.setWidth 32) t) s = .next (u.send .mmioDropped))

/-- R193, R195, R198, R218, R184, R185: a write that may be applied is appended to the writes applied at its home, or is
discarded with an ASYNC record where its home refuses it; a write that becomes visible to every observer goes into
memory; a page walk answers the oldest miss of a function.
Model's own choices: notes/assumptions/16, 17.md. -/
def Obligations.WriteSteps : Prop :=
  ∀ (s : State),
    (∀ w (x : Wr) (err : Byte), s.inflight.find? (fun v => v.id == w) = some x → s.mayApply x = true →
      let rest := s.inflight.filter (fun v => v.id != x.id)
      let f := x.owner.getD x.fn
      (isPeer x.loc = false → x.path ≠ .copy → { s with inflight := rest }.homeRefuses f x.loc x.data.length true = none →
        let old := leNat (s.homeRead x.loc x.data.length)
        let d := match x.op with
          | .store => x.data
          | .add k => toLE x.data.length (combined 0x90 (8 * k) old (leNat x.data) 0)
          | .fadd => toLE x.data.length (combined 0x98 32 (old % 2 ^ 32) (leNat x.data % 2 ^ 32) 0)
        let u : State := { s with inflight := rest, applied := s.applied ++ [{ x with op := .store, data := d, all := x.strong }] }
        let seen := if x.op ≠ .store ∧ x.path = .core ∧ isDram x.loc = true then u.refresh .core x.die (x.loc / 64 * 64) 64 else u
        exec (.applyAtHome w err) s = .next (seen.touch x.loc x.data.length).fold) ∧
      (∀ e, isPeer x.loc = false → x.path ≠ .copy → { s with inflight := rest }.homeRefuses f x.loc x.data.length true = some e →
        ∃ (u : State) (r : FaultRec), exec (.applyAtHome w err) s = .next (u.queueRecord x.fn r none) ∧ u.mem = s.mem ∧ u.applied = s.applied ∧
          u.inflight = rest ∧ r.async = true ∧ r.code = e.code ∧ r.pc = x.pc ∧ r.addr = x.ptr) ∧
      (isPeer x.loc = true → err = 0 →
        exec (.applyAtHome w err) s = .next ({ s with inflight := rest }.peerSend 0 ((x.loc - 2 ^ 72) / 2 ^ 40) x.data)) ∧
      (isPeer x.loc = true → err ≠ 0 →
        ∃ r : FaultRec, exec (.applyAtHome w err) s = .next ({ s with inflight := rest }.queueRecord x.fn r none) ∧
          r.async = true ∧ r.code = err.toNat ∧ r.pc = x.pc ∧ r.addr = x.ptr)) ∧
    (∀ (x : Wr) (p : Path) (die : Nat), s.applied = [x] → x.carry = [] → x.all = false → x.op = .store → 80 ≤ die →
      ∃ t, exec (.viewUpdate x.id p die) s = .next t ∧ t.applied = [] ∧ t.mem = mwrite s.mem x.loc x.data ∧ t.inflight = s.inflight ∧ t.strands = s.strands) ∧
    (∀ (x : Wr) (p : Path) (die : Nat), s.applied = [x] → x.carry = [] → x.all = false → (p, die) ∉ x.vis → die < 80 →
      exec (.viewUpdate x.id p die) s = .next { s with applied := [{ x with vis := (p, die) :: x.vis }] }) ∧
    (∀ (x : Wr) (p : Path) (die : Nat) (e : Nat × Path), s.applied.find? (fun v => v.id == x.id) = some x → e ∈ x.carry → e.2 = p → die < 80 →
      s.inflight.any (fun v => v.id == e.1) = true → exec (.viewUpdate x.id p die) s = .next s) ∧
    (∀ die fn (x : Miss), (s.die die).misses = [x] → x.fn = fn → x.walking = false →
      let t := s.setDie die (fun d => { d with misses := [], walkFn := fn })
      let ends (t : State) : Prop := exec (.pageWalk die fn) s = .next { t.setDie die (fun d => { d with ats := (s.die die).ats }) with out := s.out }
      let va := x.page * 65536
      (∀ (core : Nat) (n : Need) (t1 : State) (r : Xl), x.cores = [core] → x.eng = none → s.missNeeds x core = [n] →
        t.translate (some core) die fn va n false = (t1, r) → ends t1) ∧
      (∀ (w : Bool) (t1 : State) (r : Xl), x.cores = [] → x.eng = some w → t.translate none die fn va { r := !w, w := w } false = (t1, r) →
        ends (if (t1.die die).tlb.any (·.serves fn va w) then t1 else t1.setDie die (fun d => { d with walked := (fn, x.page) :: d.walked }))))

/-- R305 to R317, R325, R407: the walker's steps: it reads a submission, takes a node into the pool, starts the node the
dispatch goes to, admits, starts and ends workgroups, completes nodes, moves collectives on and takes launch packets.
Model's own choices: notes/assumptions/6, 34, 35, 36, 37, 63.md. -/
def Obligations.WalkerSteps : Prop :=
  ∀ (s : State) (node fn : Nat),
    -- submission and fairness
    (let x := s.func fn
      let size := x.reg 0x01A % 65536
      let entry := x.reg 0x019 + 16 * x.sqHead
      ∀ (s1 s2 s3 : State) (b : List Byte) (ps : List W64) (ids : List Nat), size ≠ 0 → x.sqHead ≠ bits (x.reg 0x01A) 47 32 → s.fnRuns fn = true →
        s.intakeFree fn = true → (wkRead fn entry 16).run.run s = (some (.ok b), s1) →
        bits (leAt b 0 8) 63 60 = 0 → leAt b 0 8 % 8 = 0 → 1 ≤ leAt b 8 2 → leAt b 8 2 ≤ 4096 → leAt b 10 6 = 0 →
        (wkRoots fn (leAt b 0 8) (leAt b 8 2)).run.run s1 = (some (.ok ps), s2) → (wkSubmit fn {} ps).run.run s2 = (some ids, s3) →
        exec (.submissionRingRead fn) s = .next (s3.setFunc fn (fun x => { x with sqHead := (x.sqHead + 1) % size }))) ∧
    (∃ t, exec .dispHalving s = .next t ∧ (∀ f p, t.dispOf f p = s.dispOf f p / 2) ∧ t = { s with mg := { s.mg with disp := t.mg.disp } }) ∧
    -- launch packets
    (∀ entry (sender : BitVec 20) (seq : Word) (arg : W64),
      (s.retries fn = true → (s.func fn).heldLaunch.length < 64 → exec (.launchPacket fn entry sender seq arg) s =
        .next (s.setFunc fn (fun x => { x with heldLaunch := x.heldLaunch ++ [(entry, sender.toNat, seq, arg)] }))) ∧
      (s.retries fn = true → 64 ≤ (s.func fn).heldLaunch.length → exec (.launchPacket fn entry sender seq arg) s = .next (s.launchRefused fn 3)) ∧
      (s.retries fn = false → s.intakeFree fn = true → (s.func fn).heldLaunch = [] →
        (256 ≤ entry → exec (.launchPacket fn entry sender seq arg) s = .next (s.launchRefused fn 0)) ∧
        (∀ b t, entry < 256 → (wkRead fn ((s.func fn).reg 0x01B + 32 * entry) 32).run.run s = (some (.ok b), t) →
          leAt b 0 1 < 8 → leAt b 1 1 % 2 = 1 → leAt b 1 1 < 4 → 1 ≤ leAt b 2 2 → leAt b 2 2 ≤ 4096 → leAt b 4 4 < 2 ^ 20 → leAt b 28 4 = 0 →
          (bit (leAt b 1 1) 1 = true → exec (.launchPacket fn entry sender seq arg) s = .next (t.launchRefused fn 3)) ∧
          (bit (leAt b 1 1) 1 = false → leAt b 4 4 ≠ sender.toNat → exec (.launchPacket fn entry sender seq arg) s = .next (t.launchRefused fn 1)) ∧
          (bit (leAt b 1 1) 1 = false → leAt b 4 4 = sender.toNat → seq.toNat ≤ leAt b 24 4 →
            exec (.launchPacket fn entry sender seq arg) s = .next (t.launchRefused fn 2)) ∧
          (∀ (t1 t2 t3 t4 t5 : State) (ws : List (Nat × Path)) (ps : List W64) (ids : List Nat), bit (leAt b 1 1) 1 = false → leAt b 4 4 = sender.toNat →
            leAt b 24 4 < seq.toNat → space0 (leAt b 16 8) 8 = true →
            (wkWrite fn ((s.func fn).reg 0x01B + 32 * entry + 24) (toLE 4 seq.toNat)).run.run t = (some none, t1) →
            (wkWrite fn ((s.func fn).reg 0x01B + 32 * entry + 1) (toLE 1 (leAt b 1 1 ||| 2))).run.run t1 = (some none, t2) →
            (wkPeerWrite fn 2 (leAt b 16 8) (toLE 8 arg.toNat)).run.run t2 = (some (.ok ws), t3) →
            (wkRoots fn (leAt b 8 8) (leAt b 2 2)).run.run t3 = (some (.ok ps), t4) →
            (wkSubmit fn { pmax := leAt b 0 1 % 8, launch := some entry, order := { Ord.empty with hist := ws } } ps).run.run t4 = (some ids, t5) → ids ≠ [] →
            exec (.launchPacket fn entry sender seq arg) s = .next (t5.setMg (fun m => { m with rlBusy := tset m.rlBusy (256 * fn + entry) ids })))))) ∧
    (∀ entry sender seq arg rest, s.intakeDrain fn = s → (s.func fn).heldLaunch = (entry, sender, seq, arg) :: rest →
      s.intakeFree fn = true → s.retries fn = false → exec (.walkerIntakeDrain fn) s =
        .next (((s.setFunc fn (fun x => { x with heldLaunch := rest })).wk (wkLaunch fn entry sender seq arg)).heldGo fn 63)) ∧
    ∀ n : Node, tget s.nodes node = some n →
    -- the pool
    (let due : Bool := decide (n.nextWg < n.nwg) && n.groups.any (fun g => g.kind == 2 && g.members.contains n.nextWg)
      let pool := s.nodes.filter (fun e => e.2.st == .pool);
      s.intake.find? (fun k => ((tget s.nodes k).map Node.fn) == some fn) = some node → pool.length < 65536 →
      (pool.filter (fun e => e.2.fn == fn)).length < (s.slice fn).rpq → (s.func fn).heldLaunch = [] →
      ∃ u : State, (exec (.walkerIntakeDrain fn) s = .next u ∨
          exec (.walkerIntakeDrain fn) s = .next (u.unstall .intake (fun t => u.fnOf t == fn))) ∧
        tget u.nodes node = some (if due = true
            then { n with st := .pool, due := n.due.or (some s.clock), gangCfg := if n.due.isSome then n.gangCfg else (s.func n.fn).reg 0x011 }
            else { n with st := .pool, due := none, held := false, gangPre := false }) ∧ u.intake = s.intake.filter (· != node) ∧ s.SameMemory u) ∧
    -- dispatch
    (∀ die, s.starved = none → s.nodePick = some (node, n) →
      (n.kind = 0 → n.startedAt = none →
        ∃ (u : State) (n' : Node), exec (.dispatchNode die) s = .next u ∧ tget u.nodes node = some n' ∧ n'.startedAt = some s.clock ∧ n'.st = n.st ∧
          u.dispOf n.fn n.prio = s.dispOf n.fn n.prio ∧ s.SameMemory u) ∧
      (n.kind ≠ 0 → n.kind ≠ 2 → (n.kind ≠ 1 ∨ s.poolOpen n.slice die = true) →
        ∀ u, (wkStart node die n).run.run s = (some (), u) → exec (.dispatchNode die) s = .next (u.countDisp n.fn n.prio)) ∧
      (n.kind = 1 → s.poolOpen n.slice die = false → exec (.dispatchNode die) s = .next s) ∧
      (∀ idx, n.kind = 2 → (List.range n.nwg).find? (s.instReady node n) = some idx → exec (.dispatchNode die) s = .next (s.startInst node n idx)) ∧
      (n.kind = 5 → (wkStart node die n).run.run s = (some (), s.updNode node (fun x => { x with st := .done })))) ∧
    -- workgroups
    (∀ core base wg u, s.nodePick = some (node, n) → n.kind = 0 → s.dueWgs node n = [wg] → s.admitWg node n wg core base = some u →
      exec (.workgroupAdmission node core base) s =
        .next (((u.updNode node (fun x => { x with startedAt := x.startedAt.or (some s.clock) })).advance node).countDisp n.fn n.prio)) ∧
    (∀ core base wg u, s.admitWg node n wg core base = some u →
      ∃ c : Cx, u.cx s.nextId = some c ∧ c.node = node ∧ c.wg = wg ∧ c.core = core ∧ c.sramBase = base ∧ c.hdr = n.hdr ∧ c.image = n.body ∧
        c.resident = true ∧ c.started = false ∧
        ∀ w < n.hdr.warps, ∃ st : Strand, u.strand (s.nextId + 1 + w) = some st ∧ st.ctx = .L ∧ st.cx = s.nextId ∧ st.wid = w ∧ st.pair 0 0 = n.args ∧
          ∀ k < 32, if 32 * w + k < n.hdr.wgSize
            then (st.lane k).st = .ready ∧ (st.lane k).pc = BitVec.ofNat 48 (n.body.toNat + n.hdr.laneEnt) ∧ (st.lane k).preds = 0
            else (st.lane k).st = .never) ∧
    (∀ i c, s.cx i = some c → c.node = node → c.started = false → c.resident = true → s.fnRuns c.fn = true →
      (match tget n.dieStart (c.core / 16) with
        | some t => t + max n.stagger (16 * stagFloor s.mg.stage)
        | none => n.startedAt.getD 0 + c.core / 16 * n.phase % 65536) ≤ s.clock →
      let waits : Bool := s.cxs.any (fun e => e.2.node == node && e.2.resident && e.2.started && !e.2.begun && e.2.core / 16 == c.core / 16)
      (waits = false → exec (.workgroupStart i) s = .next (s.updCx i (fun c => { c with started := true }))) ∧
      (waits = true → exec (.workgroupStart i) s = .next s)) ∧
    (∀ i c k (st : Strand), s.cxs.filter (fun e => e.2.started && !e.2.begun) = [(i, c)] → s.cx i = some c → c.node = node →
      (k, st) ∈ s.strands → st.cx = i → st.ctx = .L → st.fg = none → st.wid = 0 → 0 < st.runLen →
      s.begin.cx i = some { c with begun := true } ∧ tget s.begin.nodes node = some { n with dieStart := tset n.dieStart (c.core / 16) s.clock }) ∧
    (∀ i c, s.cx i = some c → c.node = node → c.started = true → c.resident = true → s.wgOver i c = true → tget s.insts i = none →
      ∃ (u : State) (n' : Node), exec (.workgroupComplete i) s =
          .next ((u.unstall .block (fun t => u.homeUnit t == c.core)).unstall .waggle (fun t => u.homeUnit t == c.core)) ∧
        u.cx i = none ∧ (∀ e ∈ u.strands, e.2.cx ≠ i) ∧ tget u.nodes node = some n' ∧ n'.completed = n.completed ++ [c.wg] ∧ n'.status = n.status ∧
        (n.completed.length + 1 = n.nwg → n'.st = .done) ∧ (n.completed.length + 1 ≠ n.nwg → n'.st = n.st) ∧ s.SameMemory u) ∧
    -- completion
    (∀ t, n.st = .done → (s.retries n.fn = false ∨ s.resetting n.fn = true) → s.unapplied (fun id => n.order.hist.any (·.1 == id)) = false → n.succCnt = 0 → n.launch = none →
      (wkWrite n.fn (n.record.toNat + 60) (toLE 1 n.status)).run.run s = (some none, t) →
      exec (.nodeComplete node) s = .next { t with nodes := tdel t.nodes node }) ∧
    (∀ (p : W64) (b : List Byte) (t u v : State) (r : Option Nat), space0 p.toNat 64 = true → (wkRead n.fn p.toNat 64).run.run s = (some (.ok b), t) →
      leAt b 44 4 = 1 → (wkWrite n.fn (p.toNat + 44) (toLE 4 0)).run.run t = (some none, u) →
      (u.nodes.find? (fun e => e.2.st == .waiting && e.2.fn == n.fn && e.2.record == p)) = none →
      (wkReady n.fn p { skip := n.status != 0, order := { Ord.empty with hist := addWrites [] n.order.hist } }).run.run u = (some r, v) →
      (wkSucc n p).run.run s = (some (), v)) ∧
    -- collectives
    (∀ c rank data, n.coll = some c →
      let arrives : Instr := .collectiveContributionArrival node rank data
      let other : Prop := rank ≠ c.rank ∧ rank < c.ids.length
      let op := leAt c.body 0 1
      (s.retries n.fn = true → exec arrives s = .next (s.send (.refused 0x100 rank)) ∧ exec (.collectiveAck node rank) s = .next (s.send (.refused 0x100 rank))) ∧
      (s.retries n.fn = false → other → (∀ p ∈ c.parts, p.1 ≠ rank) → (op = 3 → rank = leAt c.body 28 4) →
        (data.length = collElems c.body op c.ids.length → exec arrives s =
          .next ((s.updNode node (fun x => { x with coll := some { c with parts := c.parts ++ [(rank, data)] } })).wk (wkCollGo node))) ∧
        (data.length ≠ collElems c.body op c.ids.length → exec arrives s = .next (s.collEnd node 8))) ∧
      (s.retries n.fn = false → other → op ≠ 4 → rank ∉ c.acks → exec (.collectiveAck node rank) s =
        .next ((s.updNode node (fun x => { x with coll := some { c with acks := c.acks ++ [rank] } })).wk (wkCollGo node))) ∧
      (s.retries n.fn = false → op = 4 → exec (.collectiveAck node rank) s =
        .next (s.updNode node (fun x => { x with st := .done, status := if rank = 0 then 0 else 0x23, errAt := s.clock, coll := none }))) ∧
      (∀ vs ws t, op ≠ 4 → c.wrote = false → c.result s.freeCtr = some vs →
        let bs := vs.flatMap (fun v => toLE (collSize c.body) v.toNat)
        (wkPeerWrite n.fn (bs.length / 65536 + 2) (leAt c.body 16 8) bs).run.run { s with freeCtr := s.freeCtr + leAt c.body 24 4 } = (some (.ok ws), t) →
        (wkCollGo node).run.run s = (some (), ((t.nodeWrote node ws).collThank node c).collOver node)) ∧
      (c.wrote = true → s.mg.linkQ = [] → (leAt c.body 3 1 = 0 ∨ c.sends = false ∨ c.ids.length ≤ c.acks.length + 1) →
        s.collOver node = s.updNode node (fun x => { x with st := .done, status := 0, errAt := s.clock, coll := none }))) ∧
    -- gangs
    (∀ t, s.gangAge n = some t →
      (n.waitCyc ≤ t → exec (.gangWaitExpiry node) s = .next (s.updNode node (fun x => { x with held := true }))) ∧
      (n.preCyc ≤ t → s.canAdmit node n = false →
        exec (.gangPreExpiry node) s = .next ((s.updNode node (fun x => { x with gangPre := true })).preemptFor n (n.waitCyc))) ∧
      (n.preCyc + n.waitCyc ≤ t → exec (.gangUnplaceable node) s = .next (s.killNode node 5)))

/-- R326 to R331, R362, R363, R428: a request that has waited too long forces the full save; a stopped context is written
to its save area and leaves its core; a saved context that has a place again is restored from its area; an access that
fails gives the save up. R103, R155, R253: what the area holds for a register, an `lcr` and a barrier reads back.
Model's own choices: notes/assumptions/38, 39, 58.md. -/
def Obligations.SaveSteps : Prop :=
  ∀ (s : State) (i : Nat) (c : Cx), s.cx i = some c →
    let area := c.area
    let die := dieOfUnit c.core
    (∀ t, c.preempt = some t → t + c.preemptCyc ≤ s.clock →
      (c.forced = true → exec (.preempttoExpiry i) s = .next s) ∧
      (c.forced = false → exec (.preempttoExpiry i) s = .next (c.strands.foldl State.settle ((c.strands.foldl (fun s k => s.updStrand k (fun st =>
        { st with deferred := (st.pends.filter Pend.trailed).map Pend.dst })) s).updCx i (fun c => { c with forced := true }))))) ∧
    -- writing
    (c.saveBad = none → s.saveReady i c = true →
      (c.core < 1024 → ∀ s1, s.quiesceCmds i = (s1, none) → exec (.saveAreaWrite i) s = .next (s.takeWalks s1)) ∧
      (c.core < 1024 → ∀ s1 rems c1 main fo flts, s.quiesceCmds i = (s1, some rems) → s1.cx i = some c1 → s1.areaImage c1 (s.matrixImage i c) rems = (main, fo, flts) →
        let s2 := { s1 with freeCtr := s1.freeCtr + main.length }
        c1.area = area → c1.core = c.core → c1.fn = c.fn →
        (∀ s3 s4 u v, s2.areaWrite die c.fn area main = (s3, .ok u) → s3.areaWrite die c.fn (area + fo) flts = (s4, .ok v) →
          exec (.saveAreaWrite i) s = .next (s4.leaveCore i c1 (leAt main 2 1))) ∧
        (∀ s3 x a, s2.areaWrite die c.fn area main = (s3, .stop x a) → exec (.saveAreaWrite i) s = .next (s3.abandon i x a)) ∧
        (∀ s3, s2.areaWrite die c.fn area main = (s3, .wait) → exec (.saveAreaWrite i) s = .next (s.takeWalks s3))) ∧
      (1024 ≤ c.core → ∀ inst st, tget s.insts i = some inst → s.strand inst.strand = some st →
        (∀ s1 u, s.areaWrite die c.fn area (s.instImage c inst st) = (s1, .ok u) → exec (.saveAreaWrite i) s = .next (s1.leaveCore i c 2)) ∧
        (∀ s1 x a, s.areaWrite die c.fn area (s.instImage c inst st) = (s1, .stop x a) → exec (.saveAreaWrite i) s = .next (s1.abandon i x a)))) ∧
    (∀ code detail a, c.saveBad = some (code, detail, a) → exec (.saveAreaWrite i) s = .next (s.abandon i ⟨code, detail, false⟩ a)) ∧
    (∀ form, ∃ c', (s.leaveCore i c form).cx i = some c' ∧ c'.resident = false ∧ c'.savedForm = some form ∧ c'.preempt = none ∧ c'.bars = c.bars ∧
      s.SameMemory (s.leaveCore i c form) ∧
      ∀ k st, s.strand k = some st → st.cx = i → k ∈ c.strands → ∃ st', (s.leaveCore i c form).strand k = some st' ∧ st'.lanes = st.lanes ∧
        st'.vregs = st.vregs ∧ st'.sregs = st.sregs ∧ st'.run = none) ∧
    -- restoring
    (∀ core base t u p, s.dispatchPick = some p → p.saved = true → p.id = i → s.occupy i core base = some t → s.savedGang i c = [i] →
      (t.restoreOne i = .ok u → exec (.contextRestore i core base) s = .next (u.countDisp c.fn c.prio)) ∧
      (t.restoreOne i = .error u → exec (.contextRestore i core base) s = .next (s.takeWalks u))) ∧
    (∀ core base t, s.occupy i core base = some t → c.resident = false ∧ c.savedForm.isSome ∧
      t.cx i = some { c with resident := true, core := core, sramBase := base, admittedAt := s.clock } ∧ s.SameMemory t) ∧
    (∀ s1 s2 s3 s4 hd b fl words, s.areaRead die c.fn area 256 = (s1, .ok hd) → s1.areaRead die c.fn area (max 256 (leAt hd 60 4)) = (s2, .ok b) →
      s2.areaRead die c.fn (area + leAt hd 72 4) (64 * leAt hd 68 2) = (s3, .ok fl) →
      let warps := (c.strands.filterMap s3.strand).filter (fun st => st.ctx == .L)
      s3.codeWords die c.fn (parkedPcs (areaSections warps.length b)) = .ok (s4, words) →
      s.restoreOne i = .ok (s4.restoreFrom i c b fl words)) ∧
    (∀ s1 x a, s.areaRead die c.fn area 256 = (s1, .stop x a) → s.restoreOne i = .ok (s1.abandon i x a)) ∧
    (∀ inst st chan s1 b p, tget s.insts i = some inst → (s.channels c.slice)[c.wg]? = some chan → s.strand inst.strand = some st →
      s.dispatchPick = some p → p.saved = true → p.id = i → s.chanOpen c.slice chan = true → s.chanBusy chan = false → s.chanReset chan = false → s.keptFor (2048 + chan) i = false →
      st.lanes.length = 1 → (st.lane 0).st = .ready → s1.strand inst.strand = some st → s1.cx i = some c →
      s.areaRead (dieOfUnit (1024 + chan / 64 * 16 + chan % 64 / 4)) c.fn area 54784 = (s1, .ok b) →
      ∃ (u : State) (c' : Cx) (st' : Strand) (j : Inst), exec (.combInstanceRestore i) s = .next (((u.freeArea i).settle inst.strand).countDisp c.fn c.prio) ∧ u.cx i = some c' ∧
        c'.resident = true ∧ c'.savedForm = none ∧ u.strand inst.strand = some st' ∧ (st'.lane 0).pc = BitVec.ofNat 48 (leAt b 472 8) ∧
        (∀ n < 56, st'.sreg n = BitVec.ofNat 64 (leAt b (24 + 8 * n) 8)) ∧ tget u.insts i = some j ∧ j.chan = chan ∧
        j.stk = bit (leAt b 484 4) 19 ∧ ∀ k < 16, u.bank chan k = restoreBank ((b.drop (512 + 3392 * k)).take 3392) (s1.bank chan k).buf) ∧
    -- what the records hold
    (∀ (regs : List VReg) (rest : List Byte) (r : Nat), (∀ v ∈ regs, ∀ vs, v = .g vs → vs.length = 32) →
      restoreRegs regs.length r (regs.flatMap (regRecord 0xFFFFFFFF) ++ rest) = (regs, none)) ∧
    (∀ l : Lcr, l.log2n.toNat ≤ 5 → l.spill.length = 16 →
      (∀ k < 16, (if l.log2n = 0 then 0 else 32 / 2 ^ l.log2n.toNat) ≤ k → l.carry.getLsbD k = false ∧ l.ovf.getLsbD k = false ∧ l.spill.getD k 0 = 0) →
      restoreLcr l.bytes = some l) ∧
    (∀ b : Bar, b.valid = true → b.out = 0 → b.carry = [] → b.lcarry = [] → b.arrived ≤ 2048 → b.threads ≤ 2048 → b.err < 16 → b.lerr < 16 → b.stkcode < 16 →
      -(2 ^ 31) ≤ b.pending → b.pending < 2 ^ 31 → restoreBar b.bytes = some b)

/-- R365, R366, R368, R370 to R374, R383, R384: the slice commands: a refused one ends with its RESULT, the others scrub
and move the resources they name; at a command's end its result is there, BUSY clears and ownership and MAPGEN change.
Model's own choices: notes/assumptions/40.md. -/
def Obligations.SliceSteps : Prop :=
  ∀ (s : State),
    let n := s.slcSlice
    let t := s.slcTarget
    let runs (op : Nat) : Prop := s.mg.slcBusy = true ∧ s.mg.slcOp = op ∧ s.mg.slcPend = none ∧ s.mg.slcPhase = false ∧ s.slcRefused = none
    let turn (op : Nat) : State := if (s.slice n).st = 2 ∧ 1 ≤ op ∧ op ≤ 5 then s.setFunc n (fun f => f.setReg 0x12A 0) else s
    let fails (i : Instr) (op : Nat) : Prop := ∀ r, s.mg.slcBusy = true → s.mg.slcOp = op → s.mg.slcPend = none → s.mg.slcPhase = false →
      s.slcRefused = some r → (s.slice n).st ≠ 2 → exec i s = .next (s.setMg (fun m => { m with slcPend := some r }))
    (fails .sliceCreate 0 ∧ fails .addch 1 ∧ fails .addcore 2 ∧ fails .remch 3 ∧ fails .remcore 4 ∧ fails .movech 5 ∧ fails .setparam 6 ∧ fails .sliceDestroy 7) ∧
    -- the parameter record
    (∀ s1 b x, space0 s.mg.slcArg.toNat 8 = true → s.fnRead 80 0 s.mg.slcArg.toNat 32 = (s1, .ok b) → sliceParams b (s1.slice s1.slcSlice) = some x →
      (runs 0 → ∃ (u : State) (y : Slice), exec .sliceCreate s = .next u ∧ u.slice s1.slcSlice = y ∧ y.st = 1 ∧ y.keyValid = true ∧ y.prot = x.prot ∧
        y.dispw = x.dispw ∧ y.rpq = x.rpq ∧ (u.func s1.slcSlice).mapgen = 0 ∧ u.mg.slcPend = some 0 ∧ u.mg.keyDraws = s1.mg.keyDraws + 1 ∧ s1.SameMemory u) ∧
      (runs 6 → exec .setparam s = .next ((s1.setSlice s1.slcSlice (fun _ => x)).slcDone 0))) ∧
    (∀ s1 b, space0 s.mg.slcArg.toNat 8 = true → s.fnRead 80 0 s.mg.slcArg.toNat 32 = (s1, .ok b) → sliceParams b (s1.slice s1.slcSlice) = none →
      (runs 0 → exec .sliceCreate s = .next (s1.slcDone 1)) ∧ (runs 6 → exec .setparam s = .next (s1.slcDone 1))) ∧
    -- resources
    (runs 1 → exec .addch s = .next (((((turn 1).giveChan t 66).scrubBanks t).scrubRows t).slcDone 0)) ∧
    (runs 2 → exec .addcore s = .next (((((turn 2).giveCore t 66).scrubCore t).setCore t (fun c => { c with arrived := 0 })).slcDone 0)) ∧
    (runs 3 → exec .remch s = .next ((turn 3).setMg (fun m => { m with slcPhase := true }))) ∧
    (runs 4 → exec .remcore s = .next ((turn 4).setMg (fun m => { m with slcPhase := true }))) ∧
    (∀ f, s.mg.slcPhase = true → (s.mg.slcOp = 3 → s.chanOpen f t = false) ∧ (s.mg.slcOp = 4 → s.coreOpen f t = false)) ∧
    (runs 5 → exec .movech s = .next (((((turn 5).giveChan s.slcTo 66).scrubBanks s.slcTo).scrubRows s.slcTo).slcDone 0)) ∧
    (s.mg.slcBusy = true → s.mg.slcPend = none → s.mg.slcPhase = true →
      (s.mg.slcOp = 3 → s.inflight.any (fun w => isDram w.loc && chanOf w.loc == t) = false → (∀ b < 16, (s.bank t b).buf = []) →
        exec .remch s = .next ((((s.giveChan t 66).scrubBanks t).scrubRows t).slcDone 0)) ∧
      (s.mg.slcOp = 4 → s.guestsAtRest t = true → s.inflight.any (fun w => w.overlaps (sramLoc t 0) 4194304) = false →
        exec .remcore s = .next ((((s.recallGuests t).giveCore t 66).scrubCore t).slcDone 0))) ∧
    (runs 7 → ∃ u, exec .sliceDestroy s = .next u ∧ (u.slice n).st = 3 ∧ (u.slice n).keyValid = false ∧ u.mg.slcPend = some 0 ∧
      (∀ c < 1024, s.chanSlice c = n → u.chanSlice c = 66) ∧ (∀ c < 1024, s.coreSlice c = n → u.coreSlice c = 66) ∧ (∀ c f, u.chanSlice c = 66 → f < 66 → u.chanServes f c = false) ∧
      (u.func n).streams = List.replicate 8 ⟨false, 0, 0, 0⟩) ∧
    -- scrubs
    (Memory.wf s.mem = true → ∀ c, (∀ a, mget (s.scrubRows c).mem a = if a / 2 ^ 30 = c then 0 else mget s.mem a) ∧
      (∀ p ∈ (s.scrubRows c).poison, p / 2 ^ 25 ≠ c) ∧ (∀ e ∈ (s.scrubRows c).gran, e.1 / 16384 = c → e.2.attr = none ∧ e.2.lost = false) ∧
      ((s.scrubRows c).chan c).epoch = 0 ∧ (∀ b < 16, (s.scrubBanks c).bank c b = Bank.reset) ∧
      (∀ o < 4194304, mget (s.scrubCore c).mem (sramLoc c o) = 0 ∧ ∀ p ∈ (s.scrubCore c).poison, 32 * p ≠ sramLoc c o) ∧ ((s.scrubCore c).core c).tlb = [] ∧ ((s.scrubCore c).core c).holder = none) ∧
    -- the end
    (∀ r, s.mg.slcPend = some r →
      ∃ u, exec .sliceCommandEnd s = .next (u.cause 0 0) ∧ u.mg.slcBusy = false ∧ u.mg.slcResult = r ∧ u.mg.slcPend = none ∧
        (r = 0 → s.mg.slcOp = 1 → u.chanSlice t = n) ∧ (r = 0 → s.mg.slcOp = 2 → u.coreSlice t = n) ∧ (r = 0 → s.mg.slcOp = 5 → u.chanSlice s.slcTo = n) ∧
        (r = 0 → s.mg.slcOp = 3 → u.chanSlice t = 65) ∧ (r = 0 → s.mg.slcOp = 4 → u.coreSlice t = 65) ∧ (r = 0 → s.mg.slcOp = 7 → (u.slice n).st = 0 ∧ (∀ c, s.chanSlice c = 66 → u.chanSlice c = 65) ∧ ∀ c, s.coreSlice c = 66 → u.coreSlice c = 65) ∧
        (u.func n).mapgen = (if r = 0 ∧ (1 ≤ s.mg.slcOp ∧ s.mg.slcOp ≤ 5 ∨ s.mg.slcOp = 7) then ((s.func n).mapgen + 1) % 65536 else (s.func n).mapgen) ∧
        (r ≠ 0 → u.mg.chanOwner = s.mg.chanOwner ∧ u.mg.coreOwner = s.mg.coreOwner ∧ s.SameMemory u))

/-- R376, R379 to R382: the containment of errors: a swept epoch, a retired granule, the contexts an uncorrectable error
stops, a bad line, and the errors that reach the whole module.
Model's own choices: notes/assumptions/41.md. -/
def Obligations.ErrorSteps : Prop :=
  ∀ (s : State),
    (∀ chan, (s.chan chan).sweep = true → ∃ t, exec (.epochSweep chan) s = .next t ∧ (t.chan chan).sweep = false ∧
      (t.chan chan).swept = [] ∧ t.rowver = s.rowver.filter (fun e => e.1 / 2 ^ 20 != chan || (s.chan chan).swept.contains e.1) ∧ s.SameMemory t) ∧
    (∀ g, g < 2 ^ 24 → (s.chan (g / 16384)).spares < 16 →
      let bad := s.poison.any (fun p => p / 2048 == g)
      (s.granule g).held = true →
      ∃ t, exec (.granuleRetire g) s = .next t ∧ (t.granule g).lost = ((s.granule g).lost || bad) ∧ (t.granule g).held = false ∧
        (t.chan (g / 16384)).spares = (s.chan (g / 16384)).spares + 1 ∧
        (t.chan (g / 16384)).degraded = ((s.chan (g / 16384)).degraded || (s.chan (g / 16384)).spares == 15) ∧ (∀ p ∈ t.poison, p / 2048 ≠ g) ∧ s.SameMemory t) ∧
    (∀ g, g < 2 ^ 24 → 16 ≤ (s.chan (g / 16384)).spares → (s.granule g).held = true →
      ∃ t, exec (.granuleRetire g) s = .next t ∧ (t.chan (g / 16384)).degraded = true ∧ (t.granule g).held = false ∧ t.poison = s.poison) ∧
    (∀ core passed, exec (.coreUncorrectableError core passed) s = .next
      (((s.machineStopAll (fun c => c.resident && c.core == core)).countError (s.coreSlice core) core).setCore core (fun c => { c with outOfService := c.outOfService || !passed }))) ∧
    (∀ i c, s.cx i = some c → ∃ r : FaultRec, s.machineStop i = ((s.countError c.slice c.core .machineStop).queueRecord c.fn r none).killNode c.node 8 ∧ r.code = 0x3F ∧ r.async = false) ∧
    (∀ node n, tget s.nodes node = some n → n.st ≠ .done →
      ∃ n', tget (s.killNode node 8).nodes node = some n' ∧ n'.st = .done ∧ n'.status = 8 ∧ ∀ e ∈ (s.killNode node 8).cxs, e.2.node ≠ node) ∧
    (∀ die, ∃ u : State, (u.die die).tlb = [] ∧ (u.die die).wcache = [] ∧ (∀ e ∈ u.cores, e.1 / 16 = die → e.2.tlb = []) ∧ u.strands = s.strands ∧
      u.cxs = s.cxs ∧ s.SameMemory u ∧
      exec (.dieTlbUncorrectableError die) s = .next (((s.cxs.filter (fun e => s.usesTlb die e.1)).map (·.1)).foldl State.machineStop u)) ∧
    (∀ die f line, (f, line) ∉ s.l2bad → exec (.l2LineUncorrectableError die f line) s =
      .next { s.countError f (2048 + die) with l2bad := (f, line) :: s.l2bad }) ∧
    (∀ link, link ∉ s.mg.linksDown →
      exec (.linkFailure link) s = .next (s.setMg (fun m => { m with linksDown := link :: m.linksDown })).moduleError) ∧
    exec .hubDieError s = .next s.moduleError ∧
    (∃ u : State, s.moduleError = u.setMg (fun m => m.request (6, 0, 0)) ∧ ∀ f < 65, (u.func f).ifState =
      (if (s.slice f).st ≠ 0 ∧ ((s.func f).ifState = 2 ∨ (s.func f).ifState = 4) then 3 else (s.func f).ifState))

/-- R389, R391 to R401: translations and page requests that are answered, the requests of a function's interface and of
its sessions: what each does where it is allowed, and that it is refused and changes nothing else where it is not.
Model's own choices: notes/assumptions/42, 44.md. -/
def Obligations.HostLinkSteps : Prop :=
  ∀ (s : State) (die f : Nat) (iova : BitVec 57),
    let x := s.func f
    let live := x.ifState = 1 ∨ x.ifState = 2
    let session := s.session f = true
    -- translation
    (∀ a, s.atsEntry die f iova.toNat = some a →
      (∀ r, a.reply = none → exec (.atsTranslationCompletion die f iova r) s = .next (s.putAts die { a with reply := some r })) ∧
      (a.pri = true → exec (.priPageResponse die f iova true) s =
        .next ((s.putAts die { a with reply := none, pri := false, retried := true }).sendHost f (.atsRequest f (a.iova * 65536)))) ∧
      (a.pri = true → exec (.priPageResponse die f iova false) s = .next (s.putAts die { a with reply := some .unsupported, pri := false })) ∧
      (a.pri = true → exec (.priTimeout die f iova) s = .next (s.putAts die { a with reply := some .unsupported, pri := false })) ∧
      (a.reply = none → exec (.completionTimeout die f iova none) s = .next (s.putAts die { a with reply := some .unsupported })) ∧
      (∀ b, b.fn = a.fn → b.iova = a.iova → (s.putAts die b).atsEntry die f iova.toNat = some b)) ∧
    (∀ e c, s.cmdAt die e = some c → c.fn = f → c.started = true →
      exec (.completionTimeout die f iova (some e)) s = .next ((s.cmdEnd die c 2).engGoOn die e)) ∧
    (∀ pages, s.mg.invalidations.length < 32 → ∃ t, exec (.atsInvalidateRequest f iova pages) s = .next t ∧
      t.mg.invalidations = s.mg.invalidations ++ [(s.mg.nextTag, f, iova.toNat / 65536, pages)] ∧ t.mg.nextTag = s.mg.nextTag + 1 ∧
      (∀ d ∈ t.dies, ∀ a ∈ d.2.ats, a.fn = f → a.reply.isSome → a.pri = false → ¬ (iova.toNat / 65536 ≤ a.iova ∧ a.iova < iova.toNat / 65536 + pages)) ∧
      (∀ e, ((∃ d ∈ t.dies, e ∈ d.2.tlb) ∨ ∃ k ∈ t.cores, e ∈ k.2.tlb) → e.fn = f →
        let names (a : Nat) : Prop := iova.toNat / 65536 < a / 65536 + e.size / 65536 ∧ a / 65536 < iova.toNat / 65536 + pages
        (e.ats.isSome → ¬ names e.base) ∧ (e.ats = none → (Pte.mk e.leaf.toNat).host = true → ¬ names (Pte.mk e.leaf.toNat).pa)) ∧
      s.SameMemory t) ∧
    (∀ tag p n, s.mg.invalidations.find? (fun i => i.1 == tag) = some (tag, f, p, n) → s.inflight.any (fun w => w.fn == f && isHost w.loc) = false →
      exec (.atsInvalidateCompletion tag) s =
        .next ((s.setMg (fun m => { m with invalidations := m.invalidations.filter (fun i => i.1 != tag) })).send (.invalidateDone tag))) ∧
    -- the interface
    (session → f ≠ 0 → x.ifState = 0 → (s.slice f).st = 1 → s.holdsWork f = false →
      ∃ t : State, exec (.lockInterfaceRequest f) s = .next (t.send (.accepted 0x80)) ∧ (t.slice f).st = 2 ∧ (t.func f).ifState = 1 ∧
        (t.func f).meas5 = some (sha3 (s.descriptor f)) ∧ s.SameMemory t) ∧
    ((¬ session ∨ f = 0 ∨ x.ifState ≠ 0 ∨ (s.slice f).st ≠ 1 ∨ s.holdsWork f = true) → exec (.lockInterfaceRequest f) s = .next (s.send (.refused 0x80 f))) ∧
    (session → x.ifState = 1 → exec (.startInterfaceRequest f) s =
      .next ((if s.mg.fwstate = 3 then ((s.setIf f 2).quiesceBegin f false).holdFor f else s.setIf f 2).send (.accepted 0x81))) ∧
    (¬ session ∨ x.ifState ≠ 1 → exec (.startInterfaceRequest f) s = .next (s.send (.refused 0x81 f))) ∧
    (session → x.ifState ≠ 0 → ∃ t : State, exec (.stopInterfaceRequest f) s = .next (t.send (.accepted 0x82)) ∧ (t.func f).ifState = 0 ∧ (t.slice f).st = 1 ∧
      (∀ e ∈ t.nodes, e.2.fn ≠ f) ∧ (t.func f).fqWait = [] ∧ (t.func f).streams = List.replicate 8 ⟨false, 0, 0, 0⟩ ∧ (t.slice f).keyValid = true ∧
      (Memory.wf s.mem = true → ∀ c < 1024, s.chanSlice c = f → ∀ o < 2 ^ 30, mget t.mem (c * 2 ^ 30 + o) = 0)) ∧
    (¬ session ∨ x.ifState = 0 → exec (.stopInterfaceRequest f) s = .next (s.send (.refused 0x82 f))) ∧
    (let y := s.setFunc f (fun x => { x with cfgGen := x.cfgGen + 1 });
      ((x.ifState = 2 ∨ x.ifState = 4) → exec (.ideIntegrityFailure f) s = .next (s.toError f) ∧ exec (.pfFunctionConfigChange f) s = .next (y.toError f) ∧
        ((s.toError f).func f).ifState = 3 ∧ ∀ w ∈ (s.toError f).inflight, w.fn = f → isHost w.loc = false) ∧
      (x.ifState ≠ 2 → x.ifState ≠ 4 → exec (.ideIntegrityFailure f) s = .next s ∧ exec (.pfFunctionConfigChange f) s = .next y)) ∧
    (x.ifState = 4 → s.tdispReport f = [2, 1]) ∧
    -- sessions
    (∀ key, (session → exec (.ideKm f key) s = .next ((s.setFunc f (fun x => { x with ide := some key })).send (.accepted 0x83))) ∧
      (¬ session → exec (.ideKm f key) s = .next (s.send (.refused 0x83 f)))) ∧
    (∀ fn own h, ∃ t, exec (.keyExchange fn own h) s = .next t ∧ t = s.setMg (fun m => { m with sessions := m.sessions ++ [⟨fn, own, h⟩], via := m.sessions.length }) ∧
      t.byOwner = own ∧ t.session f = (s.enumerated f && fn == some f)) ∧
    (∀ nonce v, s.viaSession = some v → session → exec (.getCreni f nonce) s =
        .next (s.send (.bytes 1 (s.creni f nonce v.transcript ++ toLE 4627 (Config.sign (s.creni f nonce v.transcript)).toNat))) ∧
      (s.creni f nonce v.transcript).length = 576) ∧
    (∀ nonce, ¬ session → exec (.getCreni f nonce) s = .next (s.send (.refused 1 f))) ∧
    (∀ n key sid last, session → live → n < 8 →
      exec (.streamSet f n key sid last) s = .next ((s.setFunc f (fun x => { x with streams := x.streams.set n ⟨true, sid, last, key⟩ })).send (.accepted 2)) ∧
      exec (.streamClr f n) s = .next ((s.setFunc f (fun x => { x with streams := x.streams.modify n (fun g => { g with valid := false }) })).send (.accepted 3))) ∧
    (∀ n key sid last, (¬ session ∨ ¬ live ∨ 8 ≤ n) → exec (.streamSet f n key sid last) s = .next (s.send (.refused 2 f)) ∧
      exec (.streamClr f n) s = .next (s.send (.refused 3 f))) ∧
    -- quiesce and resume
    (∀ save, session → x.ifState = 2 → x.quiesce = none → exec (.quiesceFunction f save) s = .next ((s.quiesceBegin f save).send (.accepted 4))) ∧
    (∃ t, s.quiesceBegin f false = t ∧ (t.func f).quiesce = some false ∧ ∀ i x, t.cx i = some x → x.fn = f → x.forced = true) ∧
    (∀ save, (¬ session ∨ x.ifState ≠ 2 ∨ x.quiesce.isSome) → exec (.quiesceFunction f save) s = .next (s.send (.refused 4 f))) ∧
    (∀ save, x.quiesce = some save → x.ifState = 2 → s.quiesceDone f = true →
      (save = false ∨ s.cxs.filter (fun e => e.2.fn == f && e.2.resident) = []) →
      exec (.quiesceComplete f) s = .next ((s.setFunc f (fun x => { x with quiesce := none, saved := save })).setIf f 4)) ∧
    (session → x.ifState = 4 → exec (.resumeFunction f) s =
      .next ((if s.mg.fwstate = 3 then s.holdFor f else ((s.unhold f).setIf f 2).heldGo f 64).send (.accepted 5))) ∧
    (x.ifState = 4 → x.heldLaunch = [] → ((((s.unhold f).setIf f 2).heldGo f 64).func f).ifState = 2 ∧
      ∀ e ∈ (((s.unhold f).setIf f 2).heldGo f 64).cxs, e.2.fn = f → e.2.preempt = none → e.2.forced = false) ∧
    (¬ session ∨ x.ifState ≠ 4 → exec (.resumeFunction f) s = .next (s.send (.refused 5 f)))

/-- R193, R403, R405, R406, R408, R409: a peer's access to an exported region, the flow control of a port, and the steps of
a live migration; what is exported reads back.
Model's own choices: notes/assumptions/23, 43, 49, 58, 63.md. -/
def Obligations.MigrationSteps : Prop :=
  ∀ (s : State) (f : Nat),
    let x := s.func f
    let session := s.session f = true
    let moves := session ∧ (x.ifState = 2 ∨ x.ifState = 4)
    (∀ key peer, (session → (x.ifState = 1 ∨ x.ifState = 2) → exec (.migkey f key peer) s =
        .next ((s.setFunc f (fun x => { x with migKey := some key, migPeer := peer, importCtr := 0 })).send (.accepted 6))) ∧
      (¬ session ∨ (x.ifState ≠ 1 ∧ x.ifState ≠ 2) → exec (.migkey f key peer) s = .next (s.send (.refused 6 f)))) ∧
    (∀ first count, moves → ∃ (t : State) (bs : List Byte), exec (.dirtyRead f first count) s = .next (t.send (.bytes 7 bs)) ∧ bs.length = (count + 7) / 8 ∧
      (∀ g, first ≤ g → g < first + count → (bs.getD ((g - first) / 8) 0).getLsbD ((g - first) % 8) = (s.ownGran f g && (s.granule g).dirty)) ∧
      (∀ e ∈ t.gran, first ≤ e.1 → e.1 < first + count → s.ownGran f e.1 = true → e.2.dirty = false) ∧ t = { s with gran := t.gran }) ∧
    (∀ first count, ¬ moves → exec (.dirtyRead f first count) s = .next (s.send (.refused 7 f))) ∧
    (∀ gran buf, (x.migKey = none ∨ ¬ moves ∨ s.ownGran f gran = false) → exec (.exportPage f gran buf) s = .next (s.send (.refused 8 f))) ∧
    (∀ key gran (buf : W64), x.migKey = some key → moves → s.ownGran f gran = true →
      let bad := (s.poison.filter (fun p => p / 2048 == gran)).map (· % 2048)
      let iv := migIv gran (x.exportCtr + 1)
      let head := toLE 32 (Config.pageHeader gran (s.granule gran).attr bad (s.granule gran).lost).toNat
      let ct := gcmXor key iv 0 ((s.homeRead (gran * 65536) 65536).mapIdx (fun i b => if bad.contains (i / 32) then 0 else b))
      ∃ u : State, exec (.exportPage f gran buf) s =
          .next ((u.homeWrite (hostLoc buf.toNat) (head ++ ct ++ gcmTag key iv head ct)).send (.accepted 8)) ∧
        (u.granule gran).dirty = false ∧ (u.func f).exportCtr = x.exportCtr + 1 ∧ s.SameMemory u) ∧
    (∀ key (buf ctr : W64) index attr bad lost, x.migKey = some key →
      let b := s.homeRead (hostLoc buf.toNat) 65584
      let ct := (b.drop 32).take 65536
      let gran := index.toNat
      let good := session ∧ x.ifState = 1 ∧ s.ownGran f gran = true ∧ x.importCtr < ctr.toNat ∧
        b.drop 65568 = gcmTag key (migIv gran ctr.toNat) (b.take 32) ct
      Config.readHeader (BitVec.ofNat 256 (leAt b 0 32)) = (index, attr, bad, lost) →
      (¬ good → exec (.importPage f buf ctr) s = .next (s.send (.refused 0xA f))) ∧
      (good → ∃ t : State, exec (.importPage f buf ctr) s = .next (t.send (.accepted 0xA)) ∧
        t.mem = (s.homeWrite (gran * 65536) (gcmXor key (migIv gran ctr.toNat) 0 ct)).mem ∧ (t.granule gran).attr = attr ∧ (t.granule gran).lost = lost ∧
        (t.func f).importCtr = ctr.toNat)) ∧
    (∀ (key : BitVec 256) (iv : BitVec 96) (bs : List Byte), gcmXor key iv 0 (gcmXor key iv 0 bs) = bs) ∧
    (∀ key cs, session → x.migKey = some key → x.ifState = 4 → x.saved = true → (s.cxs.all (fun e => e.2.fn != f || !e.2.resident)) = true →
      ((s.cxs.filter (fun e => e.2.fn == f)).map (·.2)).mapM (s.exportCx f) = some cs →
      let iv : BitVec 96 := Config.freeW64 s.freeCtr ++ Config.freeWord s.freeCtr
      let ct := gcmXor key iv 0 ((s.exportRegs f ++ [cs.length] ++ cs.flatten).flatMap (toLE 8))
      exec (.exportState f) s = .next ({ s with freeCtr := s.freeCtr + 1 }.send (.bytes 9 (toBE 12 iv.toNat ++ ct ++ gcmTag key iv [] ct)))) ∧
    (∀ (key : BitVec 256) (iv : BitVec 96) (ns : List Nat), (∀ n ∈ ns, n < 2 ^ 64) →
      let ct := gcmXor key iv 0 (ns.flatMap (toLE 8))
      openImage key (toBE 12 iv.toNat ++ ct ++ gcmTag key iv [] ct) = some ns) ∧
    ((¬ session ∨ x.migKey = none ∨ x.ifState ≠ 4 ∨ x.saved = false) → exec (.exportState f) s = .next (s.send (.refused 9 f))) ∧
    (x.streams.length = 8 → ∃ regs mid streams, imAll.run (s.exportRegs f ++ [0]) = some ((regs, mid, streams, []), []) ∧
      regs = (x.regs.filter (fun e => !sysPf e.1)).flatMap (fun e => [e.1, e.2.toNat]) ∧
      mid = [x.sqHead, x.fqTail, if (s.slice f).prot then 1 else 0, (s.slice f).dispw, (s.slice f).leasew, (s.slice f).stackw, (s.slice f).fsq,
        (s.slice f).barq, (s.slice f).rpq] ∧ streams.length = 56) ∧
    (∀ key image ns regs mid streams rest, session → x.ifState = 1 → x.migKey = some key → openImage key image = some ns →
      imAll.run ns = some ((regs, mid, streams, []), rest) →
      ∃ t : State, exec (.importState f image) s = .next (t.send (.accepted 0xB)) ∧ (t.func f).sqHead = mid.getD 0 0 ∧ (t.func f).fqTail = mid.getD 1 0 ∧
        (t.slice f).dispw = mid.getD 3 0 ∧ (t.slice f).rpq = mid.getD 8 0 ∧ s.SameMemory t) ∧
    (∀ image, (¬ session ∨ x.ifState ≠ 1 ∨ ∀ key, x.migKey = some key → openImage key image = none) →
      exec (.importState f image) s = .next (s.send (.refused 0xB f))) ∧
    -- a peer's access
    (∀ dev sf (off : BitVec 40) op, (s.retries f = true → exec (.peerRequest dev f sf off op) s = .next (s.send (.refused 0x100 dev.toNat))) ∧
      (s.retries f = false → s.enumerated f = false → exec (.peerRequest dev f sf off op) s = .next (s.send (.refused 0x0B dev.toNat)))) ∧
    (∀ (dev : BitVec 20) sf (off : BitVec 40), s.retries f = false → s.enumerated f = true →
      let d := dev.toNat
      let export_ (n : Nat) (need : Need) (atomic : Bool) := s.exportPlace d sf f off.toNat n need atomic (decide (n ≤ 16))
      let lands (n : Nat) (need : Need) (atomic : Bool) (s1 : State) (a g : Nat) : Prop := ∃ p, export_ n need atomic = (s1, .place a p g) ∧
        s1.homeHeld a = false ∧ s1.homeRefuses g a n need.w = none
      let hidden (s1 : State) (a : Nat) : Bool := isDram a && s1.rowAttr (a / 1024) != 0
      let request (n : Nat) : List Byte := toLE 3 d ++ toLE 1 f ++ toLE 1 sf ++ toLE 5 off.toNat ++ toLE 4 n
      let answer (u : State) (n : Nat) (old : List Byte) (h : Bool) : State :=
        let iv : BitVec 96 := Config.freeW64 u.freeCtr ++ Config.freeWord u.freeCtr
        let ct := gcmXor (Config.pairKey d) iv 0 old
        if h then { u with freeCtr := u.freeCtr + 1 }.peerSend 1 d (toBE 12 iv.toNat ++ ct ++ gcmTag (Config.pairKey d) iv (request n) ct) else u.peerSend 1 d old
      (∀ n s1 a g, lands n { r := true } false s1 a g →
        exec (.peerRequest dev f sf off (.read n)) s = .next (answer s1 n (s1.homeRead a n) (hidden s1 a))) ∧
      (∀ bs s1 a g, lands bs.length { w := true } false s1 a g →
        (hidden s1 a = false → exec (.peerRequest dev f sf off (.write bs)) s = .next (s1.peerWrite g 80 a bs).1 ∧
          exec (.peerRequest dev f sf off (.release bs)) s = .next (s1.peerWrite g 80 a bs true).1) ∧
        (hidden s1 a = true → exec (.peerRequest dev f sf off (.write bs)) s = .next (s1.linkRetry (Config.portOf d))) ∧
        (∀ strong iv (tag : W128),
          (gcmTag (Config.pairKey d) iv (request bs.length) bs = toBE 16 tag.toNat → exec (.peerRequest dev f sf off (.sealed strong iv bs tag)) s =
            .next (s1.peerWrite g 80 a (gcmXor (Config.pairKey d) iv 0 bs) strong).1) ∧
          (gcmTag (Config.pairKey d) iv (request bs.length) bs ≠ toBE 16 tag.toNat → exec (.peerRequest dev f sf off (.sealed strong iv bs tag)) s =
            .next (s1.linkRetry (Config.portOf d))))) ∧
      (∀ o k v s1 a g, lands k { r := true, w := true } true s1 a g →
        let old := s1.homeRead a k
        exec (.peerRequest dev f sf off (.atomic o k v)) s =
          .next (answer (s1.peerWrite g 80 a (toLE k (atomOp o (8 * k) (leNat old) (v.toNat % 2 ^ 64) (v.toNat / 2 ^ 64))) true).1 k old (hidden s1 a))) ∧
      (∀ n s1 e, export_ n { r := true } false = (s1, .stop e) →
        exec (.peerRequest dev f sf off (.read n)) s = .next (s1.send (.refused (e.code + 256 * e.detail) d)))) ∧
    -- ports
    (∀ port vc, vc < 4 → (∃ left ≤ 64, exec (.vcHold port vc) s =
        .next ({ s with freeCtr := s.freeCtr + 1 }.setMg (fun m => { m with vcs := tset m.vcs (4 * port + vc) left }))) ∧
      exec (.vcRelease port vc) s = .next (s.setMg (fun m => { m with vcs := tdel m.vcs (4 * port + vc) })).linkGo) ∧
    (∀ port, exec (.linkRetry port) s = .next (s.setMg (fun m => { m with counters := tcount m.counters (16384 + port) })) ∧
      (port ∉ s.mg.reserved → exec (.bufferReservationGrant port) s = .next (s.setMg (fun m => { m with reserved := port :: m.reserved })).linkGo)) ∧
    (∀ m : Msg, (tget s.mg.vcs m.channel = some 0 → 0 < m.flits → s.mg.linkOpen m = false) ∧
      (8 < m.flits → Config.portOf m.dev ∉ s.mg.reserved → s.mg.linkOpen m = false) ∧
      (tget s.mg.vcs m.channel = none → (m.flits ≤ 8 ∨ Config.portOf m.dev ∈ s.mg.reserved) → s.mg.linkOpen m = true)) ∧
    (∀ vc dev n body, s.mg.linkQ = [] → let m : Msg := { vc := vc, dev := dev, flits := flitsOf n, node := none, body := body };
      (s.mg.linkOpen m = false → s.linkSend vc dev n body = s.setMg (fun y => { y with linkQ := [m] })) ∧
      (s.mg.linkOpen m = true → (s.linkSend vc dev n body).mg.linkQ = [] ∧ (s.linkSend vc dev n body).out = s.out ++ [body]))

/-- R411 to R414, R418, R419: resets are requested, queued, begun, carried out and completed level by level; a start that
reaches READY, and one that fails.
Model's own choices: notes/assumptions/45, 64.md. -/
def Obligations.ResetSteps : Prop :=
  ∀ (s : State) (t : Nat),
    let begun (r : Nat × Nat × Nat) : State := s.setMg (fun m => { m with
      rstRun := some r, rstPend := none, rstQueue := m.rstQueue.drop 1, rstBusy := true, rstLevel := r.1
      rstSaved := m.rstSaved.filter (fun e => (s.cx e.1).any (fun c => !c.resident)) })
    let running (r : Nat × Nat × Nat) : Prop := s.mg.rstRun = some r ∧ s.mg.rstPend = none
    let empty (p : Nat → Cx → Bool) : Prop := ∀ e ∈ s.cxs, e.2.resident = true → p e.1 e.2 = false
    let starts (i : Instr) (r : Nat × Nat × Nat) (lo hi : Nat) : Prop := s.mg.rstRun ≠ some r → s.resetNext r = true →
      (lo ≤ t → t < hi → exec i s = exec i (begun r)) ∧ ((t < lo ∨ hi ≤ t) → exec i s = .next ((begun r).resetPend 1))
    let queued (i : Instr) (r : Nat × Nat × Nat) : Prop := s.mg.rstRun ≠ some r → s.resetNext r = false →
      exec i s = .next (if s.byOwner = true then s.request r else if r ∈ s.mg.rstQueue then s else s.send (.refused 0x48 r.1))
    -- requests
    (exec .powerUp s = .next (s.request (7, 0, 0)) ∧ exec .perst s = .next (s.request (7, 0, 0)) ∧ exec .pcieHotReset s = .next (s.request (6, 0, 0)) ∧
      exec (.functionLevelReset t) s = .next (if 1 ≤ t ∧ t ≤ s.totalVfs then s.request (4, 0, t) else s)) ∧
    (∀ r, s.mg.rstRun = none → s.mg.rstQueue = [] → (s.request r).mg.rstQueue = [r]) ∧
    (∀ r q, s.mg.rstQueue = [q] → s.mg.rstRun = none → 6 ≤ r.1 → q.1 < r.1 → (s.request r).mg.rstQueue = [r]) ∧
    (∀ r q, s.mg.rstQueue = [q] → s.mg.rstRun = none → 6 ≤ q.1 → r.1 < q.1 → s.request r = s) ∧
    -- the beginning
    (∀ p, starts (.resetEngineCopy t) (0, 0, t) 0 1024 ∧ starts (.resetEngineGather t) (0, 1, t) 0 256 ∧ starts (.resetEngineMatrix t) (0, 2, t) 0 1024 ∧
      starts (.resetEngineComb t) (0, 3, t) 0 1024 ∧ starts (.resetEngineLead t) (0, 4, t) 0 1024 ∧ starts (.resetEngineCollective t) (0, 5, t) 0 16 ∧
      starts (.resetCore t p) (1, 0, t) 0 1024 ∧ starts (.resetStack t) (2, 0, t) 0 16 ∧ starts (.resetDie t) (3, 0, t) 0 64 ∧
      starts (.resetFunction t) (4, 0, t) 1 65 ∧ ((s.slice t).st ≠ 2 → (s.slice t).st ≠ 3 → starts (.resetSlice t) (5, 0, t) 1 65) ∧
      queued (.resetEngineCopy t) (0, 0, t) ∧ queued (.resetEngineGather t) (0, 1, t) ∧ queued (.resetEngineMatrix t) (0, 2, t) ∧
      queued (.resetEngineComb t) (0, 3, t) ∧ queued (.resetEngineLead t) (0, 4, t) ∧ queued (.resetEngineCollective t) (0, 5, t) ∧
      queued (.resetCore t p) (1, 0, t) ∧ queued (.resetStack t) (2, 0, t) ∧ queued (.resetDie t) (3, 0, t) ∧ queued (.resetFunction t) (4, 0, t) ∧
      queued (.resetSlice t) (5, 0, t) ∧ queued .resetModuleWarm (6, 0, 0)) ∧
    (1 ≤ t → t < 65 → ((s.slice t).st = 2 ∨ (s.slice t).st = 3) → s.mg.rstRun ≠ some (5, 0, t) → s.resetNext (5, 0, t) = true →
      exec (.resetSlice t) s = .next ((begun (5, 0, t)).resetPend 2)) ∧
    -- engines
    (running (0, 0, t) → s.gcmRuns (t / 16) (t % 16) = false → exec (.resetEngineCopy t) s = .next ((s.engineReset (t / 16) (t % 16)).resetPend 0)) ∧
    (running (0, 1, t) → exec (.resetEngineGather t) s = .next ((s.engineReset (t / 4) (16 + t % 4)).resetPend 0)) ∧
    (running (0, 2, t) → empty (fun c x => x.core == t && (s.core t).holder == some c) →
      ∃ u : State, exec (.resetEngineMatrix t) s = .next (u.resetPend 0) ∧ (u.core t).resv = [] ∧ (u.core t).mqueue = [] ∧
        (Memory.wf s.mem = true → ∀ o < 262144, mget u.mem (accLoc t 0 0 0 + o) = 0)) ∧
    (running (0, 3, t) → empty (fun c _ => (tget s.insts c).any (fun i => i.chan == t)) → exec (.resetEngineComb t) s =
      .next (if (List.range 16).all (fun b => (s.bank t b).buf.isEmpty) = true then (s.scrubBanks t).resetPend 0 else s)) ∧
    (running (0, 4, t) → empty (fun _ x => x.core == t && x.hdr.lead) → exec (.resetEngineLead t) s =
      .next ((s.setCore t (fun c => { c with leadHold := none })).resetPend 0)) ∧
    (running (0, 5, t) → ∃ u : State, exec (.resetEngineCollective t) s = .next (u.resetPend 0) ∧
      (s.nodes.Pairwise (fun a b => a.1 < b.1) → ∀ i n, tget s.nodes i = some n →
        (∀ c, n.coll = some c → c.eng = t → ∃ n', tget u.nodes i = some n' ∧ n'.st = .done ∧ n'.status = 0x21 ∧ n'.coll = none) ∧
        ((∀ c, n.coll = some c → c.eng ≠ t) → tget u.nodes i = some n))) ∧
    -- units
    (∀ p, running (1, 0, t) → s.guestsAtRest t = true → empty (fun _ x => x.core == t) → exec (.resetCore t p) s = .next (if p = true
      then ((s.recallGuests t).scrubCore t).resetPend 0
      else (((s.recallGuests t).scrubCore t).setCore t (fun c => { c with outOfService := true })).resetPend 3)) ∧
    (∀ us : List Nat, us = (List.range 16).map (fun i => 1024 + 16 * t + i) → running (2, 0, t) → us.all s.guestsAtRest = true →
      empty (fun _ x => us.contains x.core) →
      exec (.resetStack t) s = .next ((us.foldl (fun s u => (s.setArrivals u (fun _ => []) 0).clearArrived u)
        ((List.range 64).foldl (fun s i => s.scrubBanks (64 * t + i)) (us.foldl State.recallGuests s))).resetPend 0)) ∧
    (∀ cs : List Nat, cs = (List.range 16).map (fun i => 16 * t + i) → running (3, 0, t) → cs.all s.guestsAtRest = true →
      empty (fun _ x => cs.contains x.core) → (List.range 16).any (s.gcmRuns t) = false → s.inflight.all (fun w => w.die != t) = true →
      ∃ (u : State) (r : Nat), exec (.resetDie t) s = .next (u.resetPend r) ∧ (r = 0 ∨ r = 3) ∧
        (r = 3 ↔ ∃ c ∈ cs, (u.core c).outOfService ≠ (s.core c).outOfService) ∧ (u.die t).tlb = [] ∧ (u.die t).wcache = [] ∧ (u.die t).misses = [] ∧
        (u.die t).used = [] ∧ (u.die t).halvings = 0 ∧ (u.die t).cycleBase = s.clock ∧ ∀ c ∈ cs, (u.core c).tlb = [] ∧ (u.core c).holder = none ∧ (u.core c).mqueue = []) ∧
    (∀ e c cx, tget (s.cxs) c = some cx → cx.saveSlot = some e → s.forceOff none c = s.force c) ∧
    (∀ r, r = (4, 0, t) ∨ r = (5, 0, t) → running r → (∃ e ∈ (s.killFunction t).nodes, e.2.fn = t ∧ e.2.st = .done) →
      exec (if r.1 = 4 then .resetFunction t else .resetSlice t) s = .next (s.killFunction t)) ∧
    (running (4, 0, t) → (∀ e ∈ s.nodes, e.2.fn = t → e.2.st = .waiting) → ∃ u : State, exec (.resetFunction t) s = .next (u.resetPend 0) ∧ (u.func t).regs = [] ∧ (u.func t).sqHead = 0 ∧
      (u.func t).fqTail = 0 ∧ (u.func t).ifState = 0 ∧ (u.func t).intcause = 0 ∧ (u.func t).fqWait = [] ∧ (u.func t).fqPosted = [] ∧ (u.func t).replays = [] ∧ ∀ e ∈ u.nodes, e.2.fn ≠ t) ∧
    (running (5, 0, t) → (∀ e ∈ s.nodes, e.2.fn = t → e.2.st = .waiting) → (s.slice t).st = 0 → exec (.resetSlice t) s = .next ((s.killFunction t).resetPend 0)) ∧
    (running (5, 0, t) → (∀ e ∈ s.nodes, e.2.fn = t → e.2.st = .waiting) → (s.slice t).st ≠ 0 → ∃ u : State, exec (.resetSlice t) s = .next (u.resetPend 0) ∧ (∀ e ∈ u.nodes, e.2.fn ≠ t) ∧
      (u.slice t).keyValid = true ∧ (u.slice t).keyGen = ((s.slice t).keyGen + 1) % 65536 ∧
      (Memory.wf s.mem = true → ∀ c < 1024, s.chanSlice c = t → ∀ o < 2 ^ 30, mget u.mem (c * 2 ^ 30 + o) = 0)) ∧
    -- the module
    (running (6, 0, 0) → exec .resetModuleWarm s = .next (s.warmReset.resetPend 0)) ∧
    (s.mg.rstRun ≠ some (6, 0, 0) → s.resetNext (6, 0, 0) = true → exec .resetModuleWarm s = exec .resetModuleWarm (begun (6, 0, 0))) ∧
    (s.resetNext (7, 0, 0) = true → s.mg.tripped = false → exec .moduleColdReset s = .next s.coldReset) ∧
    (s.mg.tripped = true → s.byOwner = true → exec .moduleColdReset s = .next (s.request (7, 0, 0))) ∧
    (∀ u : State, u = s.warmReset ∨ u = s.coldReset → (∀ a, 2 ^ 64 ≤ a → mget u.mem a = mget s.mem a) ∧ (∀ a, a < 2 ^ 64 → mget u.mem a = 0) ∧
      u.strands = [] ∧ u.cxs = [] ∧ u.nodes = [] ∧ u.inflight = [] ∧ u.poison = [] ∧ u.mg.bankA = s.mg.bankA ∧ u.mg.bankB = s.mg.bankB ∧
      u.mg.minsvn = s.mg.minsvn ∧ (∀ f, (u.func f).ifState = 0 ∧ (u.func f).regs = [])) ∧
    (s.warmReset.mg.boot = s.mg.boot ∧ s.warmReset.clock = s.clock ∧ s.coldReset.clock = 0 ∧
      s.warmReset.mg.stage = (if s.mg.hold4 = true then 4 else if s.mg.hold3 = true then 3 else 0) ∧
      s.warmReset.mg.counters = s.mg.counters ∧ s.coldReset.mg.counters = s.mg.counters.filter (fun e => decide (e.1 < 2 ^ 22))) ∧
    (if s.mg.bankValid true = true ∨ s.mg.bankValid false = true then
      s.coldReset.mg.boot = 0 ∧ s.coldReset.mg.failcnt = s.mg.failcnt ∧ s.mg.bankValid s.coldReset.mg.activeB = true ∧
        (s.mg.bankValid s.mg.activeB = true → s.coldReset.mg.activeB = s.mg.activeB)
      else s.coldReset.mg.boot = 2 ∧ s.coldReset.mg.reason = 9 ∧ s.coldReset.mg.failcnt = min 3 (s.mg.failcnt + 1)) ∧
    (∀ r x, s.mg.rstRun = some r → s.mg.rstPend = some x → exec .resetComplete s = .next ((s.setMg (fun m => { m with
      rstResult := x, rstBusy := false, rstRun := none, rstPend := none })).cause 0 0)) ∧
    -- starting
    (s.mg.boot = 0 → exec .startReady s = .next (if s.mg.bankValid s.mg.activeB = true
      then s.setMg (fun m => { m with boot := 1, failcnt := 0, minsvn := max m.minsvn (m.bank m.activeB).svn }) else s)) ∧
    (∀ reason : Byte, 1 ≤ reason.toNat → reason.toNat ≤ 8 → s.mg.boot = 0 → s.mg.failcnt < 2 → ∃ u, exec (.startFailure reason) s = .next u ∧ u.mg.failcnt = s.mg.failcnt + 1 ∧
      u.mg.reason = reason.toNat ∧ u.mg.boot = 0 ∧ (u.mg.activeB ≠ s.mg.activeB ↔ s.mg.bankValid (!s.mg.activeB) = true) ∧
      ∃ v, exec .startWatchdogExpiry s = .next v ∧ v = u.setMg (fun m => { m with reason := 8 })) ∧
    (∀ reason : Byte, 1 ≤ reason.toNat → reason.toNat ≤ 8 → s.mg.boot = 0 → 2 ≤ s.mg.failcnt → exec (.startFailure reason) s = .next (s.setMg (fun m => { m with
      failcnt := 3, reason := reason.toNat, boot := 2 })))

/-- R410, R415 to R417, R420 to R427: the commands of the owner's session, firmware staging and activation, what SYNC and
telemetry return, the throttle stages, the governor, and what temperature and coolant hold.
Model's own choices: notes/assumptions/44, 46, 47, 48.md. -/
def Obligations.FirmwareAndPower : Prop :=
  ∀ (s : State),
    let m := s.mg
    let other := !m.activeB
    let owned (i : Instr) (what : Nat) (ok : Bool) (u : State) : Prop :=
      (s.byOwner = true → ok = true → exec i s = .next (u.send (.accepted what))) ∧
      ((s.byOwner = false ∨ ok = false) → exec i s = .next (s.send (.refused what 0)))
    -- firmware
    owned .stageBegin 0x43 (m.fwstate == 0) (s.setMg (fun m => { m.setBank other ⟨false, 0, 0, []⟩ with fwstate := 1 })) ∧
    (∀ bs, owned (.firmwareDataTransfer bs) 0x44 (m.fwstate == 1)
      (s.setMg (fun m => m.setBank other { m.bank other with bytes := (m.bank other).bytes ++ bs }))) ∧
    owned .stageAbort 0x46 (m.fwstate == 1 || m.fwstate == 2)
      (s.setMg (fun m => { m.setBank other { m.bank other with valid := false } with fwstate := 0 })) ∧
    (s.byOwner = true → m.fwstate = 1 →
      let b := m.bank other
      let svn := (Config.imageSvn b.bytes).toNat
      (m.minsvn ≤ svn → (m.bank m.activeB).svn ≤ svn → exec (.stageVerify true) s = .next ((s.setMg (fun m =>
        { m.setBank other { b with valid := true, ver := Config.imageVer b.bytes, svn := svn } with fwstate := 2 })).send (.accepted 0x45))) ∧
      ((svn < m.minsvn ∨ svn < (m.bank m.activeB).svn) →
        exec (.stageVerify true) s = .next ((s.setMg (fun m => { m with fwstate := 0 })).send (.refused 0x45 2))) ∧
      exec (.stageVerify false) s = .next ((s.setMg (fun m => { m with fwstate := 0 })).send (.refused 0x45 1))) ∧
    ((s.byOwner = false ∨ m.fwstate ≠ 1) → ∀ ok, exec (.stageVerify ok) s = .next (s.send (.refused 0x45 0))) ∧
    ((s.byOwner = false ∨ m.fwstate ≠ 2) → exec .fwActivate s = .next (s.send (.refused 0x47 0))) ∧
    (s.byOwner = true → m.fwstate = 2 → ∃ u : State, exec .fwActivate s = .next u ∧ u.mg.fwstate = 3 ∧
      (∀ f < 65, (s.slice f).st ≠ 0 → ((s.func f).ifState = 0 ∨ (s.func f).ifState = 2 ∧ (s.func f).quiesce = none) → (u.func f).quiesce = some false)) ∧
    (m.fwstate = 3 → s.allHeld = true →
      (exec (.activationSelfCheck false) s = .next (((s.setMg (fun m => { m with fwstate := 0, reason := 0x0A })).resumeAll).send (.refused 0x47 0x0A))) ∧
      (let u := ((s.setMg (fun m => { m with fwstate := 0, activeB := other })).resumeAll).send (.accepted 0x47);
        exec (.activationSelfCheck true) s = .next (if m.boot = 2 then (u.setMg (fun m => { m with failcnt := 0 })).coldReset else u))) ∧
    -- sync and telemetry
    (∃ (u : State) (bs : List Byte), exec .evonosSync s = .next (u.send (.bytes 0x40 bs)) ∧ u.mg.syncSeq = (m.syncSeq + 1) % 2 ^ 32 ∧ s.SameMemory u ∧
      bs.length = 128 ∧ leAt bs 0 2 = 0x5C0E ∧ leAt bs 3 1 = m.boot % 256 ∧ leAt bs 16 4 = (m.syncSeq + 1) % 2 ^ 32 ∧
      leAt bs 62 1 = m.hostLink % 256 ∧ leAt bs 63 1 = m.sup % 256 ∧ leAt bs 64 1 = m.sout % 256) ∧
    (∀ k rec, 1 ≤ k → k ≤ 5 → exec (.telemetryRead k) s = .next (s.send (.bytes 0x41 ((tgetD m.records k []).flatMap (fun w => toLE 8 w.toNat)))) ∧
      exec (.telemetryRefresh k rec) s = .next (s.setMg (fun m => { m with records := tset m.records k (s.telemetry k rec) }))) ∧
    (∀ k rec, (k < 1 ∨ 5 < k) → exec (.telemetryRead k) s = .next (s.send (.refused 0x41 k)) ∧ exec (.telemetryRefresh k rec) s = .next s) ∧
    (∀ rec, s.telemetry 1 rec = [BitVec.ofNat 64 m.power, BitVec.ofNat 64 m.pwrcap, BitVec.ofNat 64 m.stage] ++ rec) ∧
    -- power
    (∀ w, owned (.pwrcapWrite w) 0x42 (decide (1000 ≤ w) && decide (w ≤ 5600)) (s.setMg (fun m => { m with pwrcap := w }))) ∧
    (∀ w, ∃ u v : State, exec (.throttleStageRaise w) s = .next u ∧ exec (.throttleStageLower w) s = .next v ∧ u.mg.power = w ∧ v.mg.power = w ∧
      u.mg.stage = (if m.pwrcap < w then min 4 (m.stage + 1) else m.stage) ∧
      v.mg.stage = (if 100 * w < 95 * m.pwrcap then max (if m.hold4 then 4 else if m.hold3 then 3 else 0) (m.stage - 1) else m.stage) ∧
      (m.pwrcap < w → ∀ e ∈ u.cores, e.2.clockStep ≤ govMax u.mg.stage)) ∧
    (∀ core, ∃ u v : State, exec (.governorStep core true) s = .next u ∧ exec (.governorStep core false) s = .next v ∧
      (u.core core).clockStep = (if (s.core core).clockStep < govMax m.stage ∧ s.idleLanes core = true then (s.core core).clockStep + 1 else (s.core core).clockStep) ∧
      (v.core core).clockStep = (if 20 < (s.core core).clockStep then (s.core core).clockStep - 1 else (s.core core).clockStep)) ∧
    -- temperature and coolant
    (∀ die temp, ∃ u v w : State, exec (.thermalWarning die temp) s = .next u ∧ exec (.thermalHold die temp) s = .next v ∧
      exec (.thermalTrip die temp) s = .next w ∧ tget u.mg.temps die = some temp ∧
      (95 ≤ temp → OutMsg.event 95 die ∈ u.out) ∧ (100 ≤ temp → v.mg.hold3 = true ∧ 3 ≤ v.mg.stage) ∧ (temp < 110 → w.mg.tripped = m.tripped) ∧
      (110 ≤ temp → w.mg.tripped = true ∧ w.cxs = [])) ∧
    (∀ temps, m.tripped = true → temps ≠ [] → (∀ t ∈ temps, t ≤ 85) → (∀ e ∈ m.temps, temps.length ≤ e.1 → e.2 ≤ 85) → exec (.thermalTripRelease temps) s = .next s.coldReset) ∧
    (∀ flow, ∃ u : State, exec (.coolantFlowLow flow) s = .next u ∧ u.mg.flow = flow ∧ u.mg.hold4 = decide (flow < 1500) ∧
      u.mg.stage = if flow < 1500 then 4 else m.stage)

/-- R64, R66: what follows an instruction that has performed: its lanes stand after it, the window holds its destination
first, the run has counted it; and where the instruction ends the run, S is set, or it is the 24th, the run ends. -/
def Obligations.RunAdvances : Prop :=
  ∀ (s : State) (st st' : Strand) (h : Hd) (o : Out), s.Ready st h → o.s.strand s.cur = some st' → st'.lanes.length = st.lanes.length →
    st'.runEnd = false → (∀ k < 32, inMask st.group k = true → (st'.lane k).st = .ready ∧ (st'.lane k).act = none) → o.pcs = [] →
    let n := st.runLen + 1
    let next := (st.lane (lowest st.group)).pc + BitVec.ofNat 48 h.len
    let ran (w : WinEnt) : Strand := { st'.mapLanes st.group (fun _ l => { l with pc := next }) with
      run := some ⟨st.group, n, st.runLong + (if h.row.long then 1 else 0), (w :: (st.run.map Run.win).getD []).take 8⟩
      stall := none, waits := none, places := [], walked := [], fg := st'.fg.map (fun g => { g with took := false }) }
    ∃ w : WinEnt, (∀ d, o.dst = .reg d → w.v = st'.vreg d ∧ w.s = st'.sreg d ∧ w.pend = none) ∧
      let t := { o.s with freeCtr := o.s.freeCtr + 32, strands := tset o.s.strands s.cur (ran w) }
      (o.ends = false → h.s = false → n ≠ 24 → s.after st h o = t) ∧
      ((o.ends = true ∨ h.s = true ∨ n = 24) → s.after st h o = (t.markRunEnd s.cur).settle s.cur)

/-- R92, R94, R105: the frame of the instructions that only write a register, inside a run: every other register, every
predicate, `lcr`, the join masks, what is pending, every other strand, context, unit and table, and all memory are as
before. -/
def Obligations.RegisterFrame : Prop :=
  ∀ (s t : State) (st : Strand) (f : Rrr) (g : Rri) (j : Ri16), st.runLen + 1 ≠ 24 →
    let frame (i : Instr) (h : Hd) (d cnt : Nat) : Prop := s.Ready st h → h.s = false → exec i s = .next t →
      s.SameMemory t ∧ t.cxs = s.cxs ∧ t.insts = s.insts ∧ t.nodes = s.nodes ∧ t.funcs = s.funcs ∧ t.slices = s.slices ∧ t.mg = s.mg ∧
      t.dies = s.dies ∧ t.cores = s.cores ∧ t.banks = s.banks ∧ t.gran = s.gran ∧ t.poison = s.poison ∧ t.out = s.out ∧
      (∀ k, k ≠ s.cur → t.strand k = s.strand k) ∧
      ∃ st', t.strand s.cur = some st' ∧ (∀ n, n < d ∨ d + cnt ≤ n → st'.vreg n = st.vreg n ∧ st'.sreg n = st.sreg n) ∧
        (∀ k, (st'.lane k).preds = (st.lane k).preds) ∧ st'.lcr = st.lcr ∧ st'.js = st.js ∧ st'.pends = st.pends ∧ st'.runEnd = false
    let d := f.d.toNat
    let two := if st.ctx.wide then 1 else 2
    (∀ p ∈ [(Instr.mov f, 0x00), (.iadd f, 0x01), (.isub f, 0x02), (.imul f, 0x03), (.imulhS f, 0x04), (.imulhU f, 0x05), (.imad f, 0x06),
        (.bitAnd f, 0x0A), (.bitOr f, 0x0B), (.bitXor f, 0x0C), (.shl f, 0x0D), (.shrU f, 0x0E), (.shrS f, 0x0F), (.iminS f, 0x10), (.imaxS f, 0x11),
        (.iminU f, 0x12), (.imaxU f, 0x13), (.popc f, 0x14), (.clz f, 0x15), (.bfx f, 0x16), (.bfi f, 0x17), (.isel f, 0x1A), (.predv f, 0x26)],
      frame p.1 (rrr p.2 f) d 1) ∧
    (∀ p ∈ [(Instr.iaddI64 f, 0x07), (.isubI64 f, 0x08), (.imulI64 f, 0x09)], frame p.1 (rrr p.2 f) d two) ∧
    (∀ p ∈ [(Instr.iaddi g, 0x1D), (.andi g, 0x1E), (.ori g, 0x1F), (.shli g, 0x20), (.shriU g, 0x21), (.shriS g, 0x22)],
      frame p.1 (rri p.2 g) g.d.toNat 1) ∧
    (∀ p ∈ [(Instr.movi j, 0x1B), (.movhi j, 0x1C)], frame p.1 (ri16 p.2 j) j.d.toNat 1) ∧
    (∀ p ∈ [(Instr.fadd f, 0x40), (.fsub f, 0x41), (.fmul f, 0x42), (.ffma f, 0x43), (.fmin f, 0x45), (.fmax f, 0x46)], frame p.1 (rrr p.2 f) d 1)

/-- R37, R40, R64, R66: the traps an instruction takes before it performs, in their order, and the end of a run that has no
room for one more class-L instruction, for every instruction that issues. The effect of an unassigned opcode is to raise
ILL_OPC in every lane of its group: it completes so wherever its strand can issue.
Model's own choices: notes/assumptions/11.md. -/
def Obligations.DecodeTraps : Prop :=
  ∀ (s : State) (st : Strand), s.strand s.cur = some st → s.canIssue s.cur st = true →
    (∀ w : BitVec 32, let h : Hd := ⟨OpRow.none, rrrOfWord w.toNat, false, 4, bit w.toNat 1, []⟩
      exec (.unassignedOpcode w) s =
        .next (s.after st h ⟨s.trapLanes s.cur st.group 0x01 (st.lane (lowest st.group)).pc 4 0, .nothing, [], false⟩)) ∧
    (∀ (f : Rrr) (g : Rri) (j : Ri16) (b : Br) (l : Brl) (z : H16), ∀ p ∈ Claims.issues (s.hdrOf st).groups f g j b l z,
      let h := p.2
      let fields : Prop := h.ok = true ∧ h.row.regsOk st.ctx.wide (s.hdrOf st).vregs h.f = true
      let place : Prop := bit h.row.ctx st.ctx.bit = true
      let full : Prop := h.row.long = true ∧ st.runLong = 8
      let traps (code : Nat) : Prop :=
        s.Does st p.1 h ⟨s.trapLanes s.cur st.group code (st.lane (lowest st.group)).pc h.len 0, .nothing, [], false⟩
      (¬ fields → traps 0x02) ∧ (fields → ¬ place → traps 0x03) ∧
      (fields → place → full → exec p.1 s = .next ((s.markRunEnd s.cur).close s.cur)) ∧
      (fields → place → ¬ full → (∃ n ∈ h.row.winReads h.f, st.runLen < n) → traps 0x04))

/-- A step performs the decoded instruction: with nothing asked for from outside and the turn the instructions', the strand
that issues next takes its port's turn and becomes the current one, and the bytes fetched at its program counter decide
which instruction it performs; a word that fails step 2 of R40 traps.
Model's own choices: notes/assumptions/2, 51.md. -/
def Obligations.StepRunsDecoded : Prop :=
  ∀ (s u : State) (i : Nat) (st : Strand) (bs : List Byte), s.agenda = [] → s.tick.turn % 2 = 0 →
    let t := { s.tick with turn := s.tick.turn + 1 }
    t.nextStrand = some i → (t.takeTurn i).strand i = some st → (t.takeTurn i).canIssue i st = true →
    { (t.takeTurn i).formGroup i with cur := i }.fetch i st (lowest st.group) (st.lane (lowest st.group)).pc = (u, .bytes bs) →
    (∀ ins rest, decodeBytes bs = .ok (ins, rest) → step s = exec ins u) ∧
    (∀ e, decodeBytes bs = .error e → step s = .next (u.illWord (leNat bs)))

/-- Words put together field by field from the spec's formats (R21, R32) decode to the instructions they stand for. -/
def Obligations.DecodeSampleWords : Prop :=
  -- RRR: guard, b, a, d, opcode, S, 1
  decodeWord (7 * 2 ^ 28 + 3 * 2 ^ 22 + 2 * 2 ^ 16 + 1 * 2 ^ 10 + 0x01 * 4 + 1) = .ok (.iadd ⟨0, 1, 2, 3, 7⟩) ∧
  decodeWord (8 * 2 ^ 28 + 58 * 2 ^ 22 + 55 * 2 ^ 16 + 54 * 2 ^ 10 + 0x40 * 4 + 2 + 1) = .ok (.fadd ⟨1, 54, 55, 58, 8⟩) ∧
  decodeWord 0x70000001 = .ok (.mov ⟨0, 0, 0, 0, 7⟩) ∧
  -- RRI and RI16
  decodeWord (0x3FF * 2 ^ 22 + 5 * 2 ^ 16 + 4 * 2 ^ 10 + 0x1D * 4 + 1) = .ok (.iaddi ⟨0, 4, 5, 0x3FF⟩) ∧
  decodeWord (0xABCD * 2 ^ 16 + 7 * 2 ^ 10 + 0x1B * 4 + 1) = .ok (.movi ⟨0, 7, 0xABCD⟩) ∧
  -- BR and BRL
  decodeWord (7 * 2 ^ 28 + 0x3FFFF * 2 ^ 10 + 0xA8 * 4 + 1) = .ok (.br ⟨0, 0x3FFFF, 7⟩) ∧
  -- ENG/SYS
  decodeWord 0x002313D1 = .ok (.trapi ⟨0, 4, 35, 0, 0⟩) ∧ decodeWord 0x000003B1 = .ok (.csync ⟨0, 0, 0, 0, 0⟩) ∧
  decodeWord (3 * 2 ^ 28 + 3 * 2 ^ 22 + 2 * 2 ^ 16 + 1 * 2 ^ 10 + 0x72 * 4 + 1) = .ok (.ladd ⟨0, 1, 2, 3, 3⟩) ∧
  decodeWord (4 * 2 ^ 28 + 5 * 2 ^ 22 + 6 * 2 ^ 16 + 3 * 2 ^ 10 + 0xE4 * 4 + 1) = .ok (.cmac ⟨0, 3, 6, 5, 4⟩) ∧
  -- the 16-bit format: b, d, op4, S, 0
  decodeWord (31 * 2 ^ 11 + 9 * 2 ^ 6 + 0x1 * 4 + 2) = .ok (.iadd16 ⟨1, 9, 31⟩) ∧ decodeWord 0x0000 = .ok (.mov16 ⟨0, 0, 0⟩) ∧
  -- not an instruction
  decodeWord (0xF * 2 ^ 28 + 0x01 * 4 + 1) = .error .illRes ∧ decodeWord (0xFF * 4 + 1) = .ok (.unassignedOpcode 0x3FD)

/-- Decode and encode agree (R18, R21, R32, R33, R37, R40): the word of every well-formed instruction decodes to it, from a
word and from bytes with anything after them; and every word the decoder takes is the word of what it gives. -/
def Obligations.DecodeEncode : Prop :=
  (∀ i : Instr, i.WF → i.size ≠ 0 → encode i < 2 ^ (8 * i.size) ∧ decodeWord (encode i) = .ok i ∧
    ∀ rest, decodeBytes (wordBytes i.size (encode i) ++ rest) = .ok (i, rest)) ∧
  (∀ (w : Nat) (i : Instr), w < 2 ^ 32 → decodeWord w = .ok i → i.WF ∧ i.size = lengthOf w ∧ encode i = w % 2 ^ (8 * i.size))

/-- The memory keeps its canonical form, addresses strictly rising and no byte listed that reads as an unlisted one: every
step keeps it, whatever the step is, an instruction's, the hardware's own or the outside's.
Model's own choices: notes/assumptions/3.md. -/
def Obligations.StepKeepsMemoryForm : Prop :=
  ∀ s t : State, Memory.wf s.mem = true → step s = .next t → Memory.wf t.mem = true

/-- R325, R365, R418, R340: the state after reset: the canonical empty memory, no context, node or fault, the register resets
the spec gives, and every interface unlocked.
Model's own choices: notes/assumptions/3, 7, 8.md. -/
def Obligations.ResetState : Prop :=
  let s := State.reset
  Memory.wf s.mem = true ∧ s.mem = [] ∧ s.strands = [] ∧ s.cxs = [] ∧ s.nodes = [] ∧ s.inflight = [] ∧ s.applied = [] ∧
  (∀ f, (s.func f).ifState = 0 ∧ (s.func f).intcause = 0 ∧ s.sysRead f 0x010 = 160000 ∧ s.sysRead f 0x011 = 800000 * 2 ^ 32 + 100000 ∧
    ∀ n ∈ [0x000, 0x003, 0x004, 0x012, 0x013, 0x014, 0x015, 0x016, 0x017, 0x019, 0x01A, 0x01B, 0x01C], s.sysRead f n = 0) ∧
  (∀ k < 16, s.sysRead 0 (0x110 + k) = 8 * 2 ^ 16 + 8) ∧ s.mg.pwrcap = 5600 ∧ s.mg.stage = 0 ∧
  (∀ c < 1024, s.chanSlice c = 0 ∧ s.coreSlice c = 0) ∧ ∀ n, n ≠ 0 → (s.slice n).st = 0
end

