-- ==== Sys2Proof/Laws/Cipher.lean ====
section
/-! SUPPORT. How many bytes the operations of Machine/Cipher.lean give, and that a string added twice is gone: what the
statements on exports, imports and encrypted peer requests need of the cipher. -/
namespace Sys2Proof.Machine

@[simp] theorem length_toLE (n v : Nat) : (toLE n v).length = n := by
  induction n generalizing v with
  | zero => rfl
  | succ n ih => simp [toLE, ih]
@[simp] theorem length_toBE (n v : Nat) : (toBE n v).length = n := by simp [toBE]
@[simp] theorem length_xorBytes (a b : List Byte) : (xorBytes a b).length = min a.length b.length := by simp [xorBytes]
@[simp] theorem length_subBytes (bs : List Byte) : (subBytes bs).length = bs.length := by simp [subBytes]
@[simp] theorem length_shiftRows (bs : List Byte) : (shiftRows bs).length = 16 := by simp [shiftRows]

/-- A string added twice, where it is as long, is gone. -/
theorem xorBytes_twice (a b : List Byte) (h : a.length ≤ b.length) : xorBytes (xorBytes a b) b = a := by
  refine List.ext_getElem (by simp; omega) (fun i _ _ => ?_)
  simp [xorBytes]

/-- Every word of the key schedule has four bytes. -/
theorem keyWords_words (n : Nat) (ws : List (List Byte)) (hl : 8 ≤ ws.length) (h : ∀ w ∈ ws, w.length = 4) :
    (keyWords n ws).length = ws.length + n ∧ ∀ w ∈ keyWords n ws, w.length = 4 := by
  induction n generalizing ws with
  | zero => exact ⟨rfl, h⟩
  | succ n ih =>
    obtain ⟨w, ws, rfl⟩ : ∃ w v, ws = w :: v := List.exists_cons_of_length_pos (by omega)
    have h7 : ((w :: ws).getD 7 []).length = 4 := by
      rw [List.getD_eq_getElem _ _ (by omega)]; exact h _ (List.getElem_mem _)
    have h0 : w.length = 4 := h w (by simp)
    have new : ∀ t : List Byte, t.length = 4 → ∀ v ∈ xorBytes ((w :: ws).getD 7 []) t :: w :: ws, v.length = 4 := fun t ht v hv => by
      rcases List.mem_cons.1 hv with rfl | hv
      · rw [length_xorBytes, h7, ht]; rfl
      · exact h v hv
    obtain ⟨a, b⟩ := ih (xorBytes ((w :: ws).getD 7 []) _ :: w :: ws) (by simp only [List.length_cons] at hl ⊢; omega) (new (if (w :: ws).length % 8 = 0
        then xorBytes (subBytes (w.drop 1 ++ w.take 1)) [gfPow 2 ((w :: ws).length / 8 - 1), 0, 0, 0]
        else if (w :: ws).length % 8 = 4 then subBytes w else w) (by
      split
      · simp only [length_xorBytes, length_subBytes, List.length_append, List.length_drop, List.length_take, h0]; rfl
      · split
        · rw [length_subBytes, h0]
        · exact h0))
    exact ⟨Eq.trans a (by simp only [List.length_cons]; omega), b⟩

/-- The last round key has sixteen bytes. -/
theorem length_lastKey (key : BitVec 256) : ((roundKeys key).getD 14 []).length = 16 := by
  obtain ⟨a, b⟩ := keyWords_words 52 ((List.range 8).map (fun i => ((toBE 32 key.toNat).drop (4 * i)).take 4)).reverse
    (by simp) (by
      intro w hw
      obtain ⟨i, hi, rfl⟩ := List.mem_map.1 (List.mem_reverse.1 hw)
      have := List.mem_range.1 hi
      simp; omega)
  have flat : ∀ l : List (List Byte), (∀ w ∈ l, w.length = 4) → l.flatten.length = 4 * l.length := by
    intro l hl
    induction l with
    | nil => rfl
    | cons w l ih => simp [hl w (by simp), ih (fun x hx => hl x (by simp [hx]))]; omega
  have := flat _ (fun w hw => b w (List.mem_reverse.1 hw))
  simp only [roundKeys]
  rw [List.getD_eq_getElem _ _ (by simp)]
  simp only [List.getElem_map, List.getElem_range, List.length_take, List.length_drop]
  rw [this]
  simp only [List.length_reverse, List.length_map, List.length_range] at a ⊢
  omega

@[simp] theorem length_gcmBlock (key : BitVec 256) (iv : BitVec 96) (i : Nat) : (gcmBlock (roundKeys key) iv i).length = 16 := by
  rw [gcmBlock, aesBlock, length_xorBytes, length_shiftRows, length_lastKey]; rfl

/-- A tag has sixteen bytes. -/
@[simp] theorem length_gcmTag (key : BitVec 256) (iv : BitVec 96) (aad ct : List Byte) : (gcmTag key iv aad ct).length = 16 := by
  simp [gcmTag]

/-- The keystream of a list of blocks. -/
theorem length_keystream (key : BitVec 256) (iv : BitVec 96) (l : List Nat) :
    (l.flatMap (fun i => gcmBlock (roundKeys key) iv (i + 2))).length = 16 * l.length := by
  induction l with
  | nil => rfl
  | cons i l ih => simp [ih]; omega

/-- Encrypted bytes are as many as the plain ones. -/
@[simp] theorem length_gcmXor (key : BitVec 256) (iv : BitVec 96) (off : Nat) (bs : List Byte) : (gcmXor key iv off bs).length = bs.length := by
  simp only [gcmXor, length_xorBytes, List.length_drop, length_keystream, List.length_range']
  omega

end Sys2Proof.Machine
end

