-- ==== Sys2Proof/Laws/State.lean ====
section
/-! SUPPORT. The state after each named update, field by field: what it writes and that it writes nothing else. -/
namespace Sys2Proof.Machine

/-! ## Updates of the whole state -/

@[simp] theorem State.putStrand_mem (s : State) (i : Nat) (st : Strand) : (s.putStrand i st).mem = s.mem := rfl
@[simp] theorem State.putStrand_inflight (s : State) (i : Nat) (st : Strand) : (s.putStrand i st).inflight = s.inflight := rfl
@[simp] theorem State.putStrand_applied (s : State) (i : Nat) (st : Strand) : (s.putStrand i st).applied = s.applied := rfl
@[simp] theorem State.putStrand_gran (s : State) (i : Nat) (st : Strand) : (s.putStrand i st).gran = s.gran := rfl
@[simp] theorem State.putStrand_poison (s : State) (i : Nat) (st : Strand) : (s.putStrand i st).poison = s.poison := rfl
@[simp] theorem State.putStrand_rowver (s : State) (i : Nat) (st : Strand) : (s.putStrand i st).rowver = s.rowver := rfl
@[simp] theorem State.putStrand_l2bad (s : State) (i : Nat) (st : Strand) : (s.putStrand i st).l2bad = s.l2bad := rfl
@[simp] theorem State.putStrand_strands (s : State) (i : Nat) (st : Strand) : (s.putStrand i st).strands = tset s.strands i st := rfl
@[simp] theorem State.putStrand_cxs (s : State) (i : Nat) (st : Strand) : (s.putStrand i st).cxs = s.cxs := rfl
@[simp] theorem State.putStrand_insts (s : State) (i : Nat) (st : Strand) : (s.putStrand i st).insts = s.insts := rfl
@[simp] theorem State.putStrand_cur (s : State) (i : Nat) (st : Strand) : (s.putStrand i st).cur = s.cur := rfl
@[simp] theorem State.putStrand_agenda (s : State) (i : Nat) (st : Strand) : (s.putStrand i st).agenda = s.agenda := rfl
@[simp] theorem State.putStrand_clock (s : State) (i : Nat) (st : Strand) : (s.putStrand i st).clock = s.clock := rfl
@[simp] theorem State.putStrand_turn (s : State) (i : Nat) (st : Strand) : (s.putStrand i st).turn = s.turn := rfl
@[simp] theorem State.putStrand_sweep (s : State) (i : Nat) (st : Strand) : (s.putStrand i st).sweep = s.sweep := rfl
@[simp] theorem State.putStrand_freeCtr (s : State) (i : Nat) (st : Strand) : (s.putStrand i st).freeCtr = s.freeCtr := rfl
@[simp] theorem State.putStrand_nextId (s : State) (i : Nat) (st : Strand) : (s.putStrand i st).nextId = s.nextId := rfl
@[simp] theorem State.putStrand_dies (s : State) (i : Nat) (st : Strand) : (s.putStrand i st).dies = s.dies := rfl
@[simp] theorem State.putStrand_cores (s : State) (i : Nat) (st : Strand) : (s.putStrand i st).cores = s.cores := rfl
@[simp] theorem State.putStrand_chans (s : State) (i : Nat) (st : Strand) : (s.putStrand i st).chans = s.chans := rfl
@[simp] theorem State.putStrand_banks (s : State) (i : Nat) (st : Strand) : (s.putStrand i st).banks = s.banks := rfl
@[simp] theorem State.putStrand_units (s : State) (i : Nat) (st : Strand) : (s.putStrand i st).units = s.units := rfl
@[simp] theorem State.putStrand_nodes (s : State) (i : Nat) (st : Strand) : (s.putStrand i st).nodes = s.nodes := rfl
@[simp] theorem State.putStrand_intake (s : State) (i : Nat) (st : Strand) : (s.putStrand i st).intake = s.intake := rfl
@[simp] theorem State.putStrand_funcs (s : State) (i : Nat) (st : Strand) : (s.putStrand i st).funcs = s.funcs := rfl
@[simp] theorem State.putStrand_slices (s : State) (i : Nat) (st : Strand) : (s.putStrand i st).slices = s.slices := rfl
@[simp] theorem State.putStrand_mg (s : State) (i : Nat) (st : Strand) : (s.putStrand i st).mg = s.mg := rfl
@[simp] theorem State.putStrand_out (s : State) (i : Nat) (st : Strand) : (s.putStrand i st).out = s.out := rfl

@[simp] theorem State.setDie_mem (s : State) (d : Nat) (f : Die → Die) : (s.setDie d f).mem = s.mem := rfl
@[simp] theorem State.setDie_inflight (s : State) (d : Nat) (f : Die → Die) : (s.setDie d f).inflight = s.inflight := rfl
@[simp] theorem State.setDie_applied (s : State) (d : Nat) (f : Die → Die) : (s.setDie d f).applied = s.applied := rfl
@[simp] theorem State.setDie_gran (s : State) (d : Nat) (f : Die → Die) : (s.setDie d f).gran = s.gran := rfl
@[simp] theorem State.setDie_poison (s : State) (d : Nat) (f : Die → Die) : (s.setDie d f).poison = s.poison := rfl
@[simp] theorem State.setDie_rowver (s : State) (d : Nat) (f : Die → Die) : (s.setDie d f).rowver = s.rowver := rfl
@[simp] theorem State.setDie_l2bad (s : State) (d : Nat) (f : Die → Die) : (s.setDie d f).l2bad = s.l2bad := rfl
@[simp] theorem State.setDie_strands (s : State) (d : Nat) (f : Die → Die) : (s.setDie d f).strands = s.strands := rfl
@[simp] theorem State.setDie_cxs (s : State) (d : Nat) (f : Die → Die) : (s.setDie d f).cxs = s.cxs := rfl
@[simp] theorem State.setDie_insts (s : State) (d : Nat) (f : Die → Die) : (s.setDie d f).insts = s.insts := rfl
@[simp] theorem State.setDie_cur (s : State) (d : Nat) (f : Die → Die) : (s.setDie d f).cur = s.cur := rfl
@[simp] theorem State.setDie_agenda (s : State) (d : Nat) (f : Die → Die) : (s.setDie d f).agenda = s.agenda := rfl
@[simp] theorem State.setDie_clock (s : State) (d : Nat) (f : Die → Die) : (s.setDie d f).clock = s.clock := rfl
@[simp] theorem State.setDie_turn (s : State) (d : Nat) (f : Die → Die) : (s.setDie d f).turn = s.turn := rfl
@[simp] theorem State.setDie_sweep (s : State) (d : Nat) (f : Die → Die) : (s.setDie d f).sweep = s.sweep := rfl
@[simp] theorem State.setDie_freeCtr (s : State) (d : Nat) (f : Die → Die) : (s.setDie d f).freeCtr = s.freeCtr := rfl
@[simp] theorem State.setDie_nextId (s : State) (d : Nat) (f : Die → Die) : (s.setDie d f).nextId = s.nextId := rfl
@[simp] theorem State.setDie_dies (s : State) (d : Nat) (f : Die → Die) : (s.setDie d f).dies = tset s.dies d (f (s.die d)) := rfl
@[simp] theorem State.setDie_cores (s : State) (d : Nat) (f : Die → Die) : (s.setDie d f).cores = s.cores := rfl
@[simp] theorem State.setDie_chans (s : State) (d : Nat) (f : Die → Die) : (s.setDie d f).chans = s.chans := rfl
@[simp] theorem State.setDie_banks (s : State) (d : Nat) (f : Die → Die) : (s.setDie d f).banks = s.banks := rfl
@[simp] theorem State.setDie_units (s : State) (d : Nat) (f : Die → Die) : (s.setDie d f).units = s.units := rfl
@[simp] theorem State.setDie_nodes (s : State) (d : Nat) (f : Die → Die) : (s.setDie d f).nodes = s.nodes := rfl
@[simp] theorem State.setDie_intake (s : State) (d : Nat) (f : Die → Die) : (s.setDie d f).intake = s.intake := rfl
@[simp] theorem State.setDie_funcs (s : State) (d : Nat) (f : Die → Die) : (s.setDie d f).funcs = s.funcs := rfl
@[simp] theorem State.setDie_slices (s : State) (d : Nat) (f : Die → Die) : (s.setDie d f).slices = s.slices := rfl
@[simp] theorem State.setDie_mg (s : State) (d : Nat) (f : Die → Die) : (s.setDie d f).mg = s.mg := rfl
@[simp] theorem State.setDie_out (s : State) (d : Nat) (f : Die → Die) : (s.setDie d f).out = s.out := rfl

@[simp] theorem State.setCore_mem (s : State) (c : Nat) (f : Core → Core) : (s.setCore c f).mem = s.mem := rfl
@[simp] theorem State.setCore_inflight (s : State) (c : Nat) (f : Core → Core) : (s.setCore c f).inflight = s.inflight := rfl
@[simp] theorem State.setCore_applied (s : State) (c : Nat) (f : Core → Core) : (s.setCore c f).applied = s.applied := rfl
@[simp] theorem State.setCore_gran (s : State) (c : Nat) (f : Core → Core) : (s.setCore c f).gran = s.gran := rfl
@[simp] theorem State.setCore_poison (s : State) (c : Nat) (f : Core → Core) : (s.setCore c f).poison = s.poison := rfl
@[simp] theorem State.setCore_rowver (s : State) (c : Nat) (f : Core → Core) : (s.setCore c f).rowver = s.rowver := rfl
@[simp] theorem State.setCore_l2bad (s : State) (c : Nat) (f : Core → Core) : (s.setCore c f).l2bad = s.l2bad := rfl
@[simp] theorem State.setCore_strands (s : State) (c : Nat) (f : Core → Core) : (s.setCore c f).strands = s.strands := rfl
@[simp] theorem State.setCore_cxs (s : State) (c : Nat) (f : Core → Core) : (s.setCore c f).cxs = s.cxs := rfl
@[simp] theorem State.setCore_insts (s : State) (c : Nat) (f : Core → Core) : (s.setCore c f).insts = s.insts := rfl
@[simp] theorem State.setCore_cur (s : State) (c : Nat) (f : Core → Core) : (s.setCore c f).cur = s.cur := rfl
@[simp] theorem State.setCore_agenda (s : State) (c : Nat) (f : Core → Core) : (s.setCore c f).agenda = s.agenda := rfl
@[simp] theorem State.setCore_clock (s : State) (c : Nat) (f : Core → Core) : (s.setCore c f).clock = s.clock := rfl
@[simp] theorem State.setCore_turn (s : State) (c : Nat) (f : Core → Core) : (s.setCore c f).turn = s.turn := rfl
@[simp] theorem State.setCore_sweep (s : State) (c : Nat) (f : Core → Core) : (s.setCore c f).sweep = s.sweep := rfl
@[simp] theorem State.setCore_freeCtr (s : State) (c : Nat) (f : Core → Core) : (s.setCore c f).freeCtr = s.freeCtr := rfl
@[simp] theorem State.setCore_nextId (s : State) (c : Nat) (f : Core → Core) : (s.setCore c f).nextId = s.nextId := rfl
@[simp] theorem State.setCore_dies (s : State) (c : Nat) (f : Core → Core) : (s.setCore c f).dies = s.dies := rfl
@[simp] theorem State.setCore_cores (s : State) (c : Nat) (f : Core → Core) : (s.setCore c f).cores = tset s.cores c (f (s.core c)) := rfl
@[simp] theorem State.setCore_chans (s : State) (c : Nat) (f : Core → Core) : (s.setCore c f).chans = s.chans := rfl
@[simp] theorem State.setCore_banks (s : State) (c : Nat) (f : Core → Core) : (s.setCore c f).banks = s.banks := rfl
@[simp] theorem State.setCore_units (s : State) (c : Nat) (f : Core → Core) : (s.setCore c f).units = s.units := rfl
@[simp] theorem State.setCore_nodes (s : State) (c : Nat) (f : Core → Core) : (s.setCore c f).nodes = s.nodes := rfl
@[simp] theorem State.setCore_intake (s : State) (c : Nat) (f : Core → Core) : (s.setCore c f).intake = s.intake := rfl
@[simp] theorem State.setCore_funcs (s : State) (c : Nat) (f : Core → Core) : (s.setCore c f).funcs = s.funcs := rfl
@[simp] theorem State.setCore_slices (s : State) (c : Nat) (f : Core → Core) : (s.setCore c f).slices = s.slices := rfl
@[simp] theorem State.setCore_mg (s : State) (c : Nat) (f : Core → Core) : (s.setCore c f).mg = s.mg := rfl
@[simp] theorem State.setCore_out (s : State) (c : Nat) (f : Core → Core) : (s.setCore c f).out = s.out := rfl

@[simp] theorem State.setFunc_mem (s : State) (n : Nat) (f : Func → Func) : (s.setFunc n f).mem = s.mem := rfl
@[simp] theorem State.setFunc_inflight (s : State) (n : Nat) (f : Func → Func) : (s.setFunc n f).inflight = s.inflight := rfl
@[simp] theorem State.setFunc_applied (s : State) (n : Nat) (f : Func → Func) : (s.setFunc n f).applied = s.applied := rfl
@[simp] theorem State.setFunc_gran (s : State) (n : Nat) (f : Func → Func) : (s.setFunc n f).gran = s.gran := rfl
@[simp] theorem State.setFunc_poison (s : State) (n : Nat) (f : Func → Func) : (s.setFunc n f).poison = s.poison := rfl
@[simp] theorem State.setFunc_rowver (s : State) (n : Nat) (f : Func → Func) : (s.setFunc n f).rowver = s.rowver := rfl
@[simp] theorem State.setFunc_l2bad (s : State) (n : Nat) (f : Func → Func) : (s.setFunc n f).l2bad = s.l2bad := rfl
@[simp] theorem State.setFunc_strands (s : State) (n : Nat) (f : Func → Func) : (s.setFunc n f).strands = s.strands := rfl
@[simp] theorem State.setFunc_cxs (s : State) (n : Nat) (f : Func → Func) : (s.setFunc n f).cxs = s.cxs := rfl
@[simp] theorem State.setFunc_insts (s : State) (n : Nat) (f : Func → Func) : (s.setFunc n f).insts = s.insts := rfl
@[simp] theorem State.setFunc_cur (s : State) (n : Nat) (f : Func → Func) : (s.setFunc n f).cur = s.cur := rfl
@[simp] theorem State.setFunc_agenda (s : State) (n : Nat) (f : Func → Func) : (s.setFunc n f).agenda = s.agenda := rfl
@[simp] theorem State.setFunc_clock (s : State) (n : Nat) (f : Func → Func) : (s.setFunc n f).clock = s.clock := rfl
@[simp] theorem State.setFunc_turn (s : State) (n : Nat) (f : Func → Func) : (s.setFunc n f).turn = s.turn := rfl
@[simp] theorem State.setFunc_sweep (s : State) (n : Nat) (f : Func → Func) : (s.setFunc n f).sweep = s.sweep := rfl
@[simp] theorem State.setFunc_freeCtr (s : State) (n : Nat) (f : Func → Func) : (s.setFunc n f).freeCtr = s.freeCtr := rfl
@[simp] theorem State.setFunc_nextId (s : State) (n : Nat) (f : Func → Func) : (s.setFunc n f).nextId = s.nextId := rfl
@[simp] theorem State.setFunc_dies (s : State) (n : Nat) (f : Func → Func) : (s.setFunc n f).dies = s.dies := rfl
@[simp] theorem State.setFunc_cores (s : State) (n : Nat) (f : Func → Func) : (s.setFunc n f).cores = s.cores := rfl
@[simp] theorem State.setFunc_chans (s : State) (n : Nat) (f : Func → Func) : (s.setFunc n f).chans = s.chans := rfl
@[simp] theorem State.setFunc_banks (s : State) (n : Nat) (f : Func → Func) : (s.setFunc n f).banks = s.banks := rfl
@[simp] theorem State.setFunc_units (s : State) (n : Nat) (f : Func → Func) : (s.setFunc n f).units = s.units := rfl
@[simp] theorem State.setFunc_nodes (s : State) (n : Nat) (f : Func → Func) : (s.setFunc n f).nodes = s.nodes := rfl
@[simp] theorem State.setFunc_intake (s : State) (n : Nat) (f : Func → Func) : (s.setFunc n f).intake = s.intake := rfl
@[simp] theorem State.setFunc_funcs (s : State) (n : Nat) (f : Func → Func) : (s.setFunc n f).funcs = tset s.funcs n (f (s.func n)) := rfl
@[simp] theorem State.setFunc_slices (s : State) (n : Nat) (f : Func → Func) : (s.setFunc n f).slices = s.slices := rfl
@[simp] theorem State.setFunc_mg (s : State) (n : Nat) (f : Func → Func) : (s.setFunc n f).mg = s.mg := rfl
@[simp] theorem State.setFunc_out (s : State) (n : Nat) (f : Func → Func) : (s.setFunc n f).out = s.out := rfl

@[simp] theorem State.setSlice_mem (s : State) (n : Nat) (f : Slice → Slice) : (s.setSlice n f).mem = s.mem := rfl
@[simp] theorem State.setSlice_inflight (s : State) (n : Nat) (f : Slice → Slice) : (s.setSlice n f).inflight = s.inflight := rfl
@[simp] theorem State.setSlice_applied (s : State) (n : Nat) (f : Slice → Slice) : (s.setSlice n f).applied = s.applied := rfl
@[simp] theorem State.setSlice_gran (s : State) (n : Nat) (f : Slice → Slice) : (s.setSlice n f).gran = s.gran := rfl
@[simp] theorem State.setSlice_poison (s : State) (n : Nat) (f : Slice → Slice) : (s.setSlice n f).poison = s.poison := rfl
@[simp] theorem State.setSlice_rowver (s : State) (n : Nat) (f : Slice → Slice) : (s.setSlice n f).rowver = s.rowver := rfl
@[simp] theorem State.setSlice_l2bad (s : State) (n : Nat) (f : Slice → Slice) : (s.setSlice n f).l2bad = s.l2bad := rfl
@[simp] theorem State.setSlice_strands (s : State) (n : Nat) (f : Slice → Slice) : (s.setSlice n f).strands = s.strands := rfl
@[simp] theorem State.setSlice_cxs (s : State) (n : Nat) (f : Slice → Slice) : (s.setSlice n f).cxs = s.cxs := rfl
@[simp] theorem State.setSlice_insts (s : State) (n : Nat) (f : Slice → Slice) : (s.setSlice n f).insts = s.insts := rfl
@[simp] theorem State.setSlice_cur (s : State) (n : Nat) (f : Slice → Slice) : (s.setSlice n f).cur = s.cur := rfl
@[simp] theorem State.setSlice_agenda (s : State) (n : Nat) (f : Slice → Slice) : (s.setSlice n f).agenda = s.agenda := rfl
@[simp] theorem State.setSlice_clock (s : State) (n : Nat) (f : Slice → Slice) : (s.setSlice n f).clock = s.clock := rfl
@[simp] theorem State.setSlice_turn (s : State) (n : Nat) (f : Slice → Slice) : (s.setSlice n f).turn = s.turn := rfl
@[simp] theorem State.setSlice_sweep (s : State) (n : Nat) (f : Slice → Slice) : (s.setSlice n f).sweep = s.sweep := rfl
@[simp] theorem State.setSlice_freeCtr (s : State) (n : Nat) (f : Slice → Slice) : (s.setSlice n f).freeCtr = s.freeCtr := rfl
@[simp] theorem State.setSlice_nextId (s : State) (n : Nat) (f : Slice → Slice) : (s.setSlice n f).nextId = s.nextId := rfl
@[simp] theorem State.setSlice_dies (s : State) (n : Nat) (f : Slice → Slice) : (s.setSlice n f).dies = s.dies := rfl
@[simp] theorem State.setSlice_cores (s : State) (n : Nat) (f : Slice → Slice) : (s.setSlice n f).cores = s.cores := rfl
@[simp] theorem State.setSlice_chans (s : State) (n : Nat) (f : Slice → Slice) : (s.setSlice n f).chans = s.chans := rfl
@[simp] theorem State.setSlice_banks (s : State) (n : Nat) (f : Slice → Slice) : (s.setSlice n f).banks = s.banks := rfl
@[simp] theorem State.setSlice_units (s : State) (n : Nat) (f : Slice → Slice) : (s.setSlice n f).units = s.units := rfl
@[simp] theorem State.setSlice_nodes (s : State) (n : Nat) (f : Slice → Slice) : (s.setSlice n f).nodes = s.nodes := rfl
@[simp] theorem State.setSlice_intake (s : State) (n : Nat) (f : Slice → Slice) : (s.setSlice n f).intake = s.intake := rfl
@[simp] theorem State.setSlice_funcs (s : State) (n : Nat) (f : Slice → Slice) : (s.setSlice n f).funcs = s.funcs := rfl
@[simp] theorem State.setSlice_slices (s : State) (n : Nat) (f : Slice → Slice) : (s.setSlice n f).slices = tset s.slices n (f (s.slice n)) := rfl
@[simp] theorem State.setSlice_mg (s : State) (n : Nat) (f : Slice → Slice) : (s.setSlice n f).mg = s.mg := rfl
@[simp] theorem State.setSlice_out (s : State) (n : Nat) (f : Slice → Slice) : (s.setSlice n f).out = s.out := rfl

@[simp] theorem State.setGran_mem (s : State) (g : Nat) (f : Gran → Gran) : (s.setGran g f).mem = s.mem := rfl
@[simp] theorem State.setGran_inflight (s : State) (g : Nat) (f : Gran → Gran) : (s.setGran g f).inflight = s.inflight := rfl
@[simp] theorem State.setGran_applied (s : State) (g : Nat) (f : Gran → Gran) : (s.setGran g f).applied = s.applied := rfl
@[simp] theorem State.setGran_gran (s : State) (g : Nat) (f : Gran → Gran) : (s.setGran g f).gran = tset s.gran g (f (s.granule g)) := rfl
@[simp] theorem State.setGran_poison (s : State) (g : Nat) (f : Gran → Gran) : (s.setGran g f).poison = s.poison := rfl
@[simp] theorem State.setGran_rowver (s : State) (g : Nat) (f : Gran → Gran) : (s.setGran g f).rowver = s.rowver := rfl
@[simp] theorem State.setGran_l2bad (s : State) (g : Nat) (f : Gran → Gran) : (s.setGran g f).l2bad = s.l2bad := rfl
@[simp] theorem State.setGran_strands (s : State) (g : Nat) (f : Gran → Gran) : (s.setGran g f).strands = s.strands := rfl
@[simp] theorem State.setGran_cxs (s : State) (g : Nat) (f : Gran → Gran) : (s.setGran g f).cxs = s.cxs := rfl
@[simp] theorem State.setGran_insts (s : State) (g : Nat) (f : Gran → Gran) : (s.setGran g f).insts = s.insts := rfl
@[simp] theorem State.setGran_cur (s : State) (g : Nat) (f : Gran → Gran) : (s.setGran g f).cur = s.cur := rfl
@[simp] theorem State.setGran_agenda (s : State) (g : Nat) (f : Gran → Gran) : (s.setGran g f).agenda = s.agenda := rfl
@[simp] theorem State.setGran_clock (s : State) (g : Nat) (f : Gran → Gran) : (s.setGran g f).clock = s.clock := rfl
@[simp] theorem State.setGran_turn (s : State) (g : Nat) (f : Gran → Gran) : (s.setGran g f).turn = s.turn := rfl
@[simp] theorem State.setGran_sweep (s : State) (g : Nat) (f : Gran → Gran) : (s.setGran g f).sweep = s.sweep := rfl
@[simp] theorem State.setGran_freeCtr (s : State) (g : Nat) (f : Gran → Gran) : (s.setGran g f).freeCtr = s.freeCtr := rfl
@[simp] theorem State.setGran_nextId (s : State) (g : Nat) (f : Gran → Gran) : (s.setGran g f).nextId = s.nextId := rfl
@[simp] theorem State.setGran_dies (s : State) (g : Nat) (f : Gran → Gran) : (s.setGran g f).dies = s.dies := rfl
@[simp] theorem State.setGran_cores (s : State) (g : Nat) (f : Gran → Gran) : (s.setGran g f).cores = s.cores := rfl
@[simp] theorem State.setGran_chans (s : State) (g : Nat) (f : Gran → Gran) : (s.setGran g f).chans = s.chans := rfl
@[simp] theorem State.setGran_banks (s : State) (g : Nat) (f : Gran → Gran) : (s.setGran g f).banks = s.banks := rfl
@[simp] theorem State.setGran_units (s : State) (g : Nat) (f : Gran → Gran) : (s.setGran g f).units = s.units := rfl
@[simp] theorem State.setGran_nodes (s : State) (g : Nat) (f : Gran → Gran) : (s.setGran g f).nodes = s.nodes := rfl
@[simp] theorem State.setGran_intake (s : State) (g : Nat) (f : Gran → Gran) : (s.setGran g f).intake = s.intake := rfl
@[simp] theorem State.setGran_funcs (s : State) (g : Nat) (f : Gran → Gran) : (s.setGran g f).funcs = s.funcs := rfl
@[simp] theorem State.setGran_slices (s : State) (g : Nat) (f : Gran → Gran) : (s.setGran g f).slices = s.slices := rfl
@[simp] theorem State.setGran_mg (s : State) (g : Nat) (f : Gran → Gran) : (s.setGran g f).mg = s.mg := rfl
@[simp] theorem State.setGran_out (s : State) (g : Nat) (f : Gran → Gran) : (s.setGran g f).out = s.out := rfl

@[simp] theorem State.setChan_mem (s : State) (c : Nat) (f : Chan → Chan) : (s.setChan c f).mem = s.mem := rfl
@[simp] theorem State.setChan_inflight (s : State) (c : Nat) (f : Chan → Chan) : (s.setChan c f).inflight = s.inflight := rfl
@[simp] theorem State.setChan_applied (s : State) (c : Nat) (f : Chan → Chan) : (s.setChan c f).applied = s.applied := rfl
@[simp] theorem State.setChan_gran (s : State) (c : Nat) (f : Chan → Chan) : (s.setChan c f).gran = s.gran := rfl
@[simp] theorem State.setChan_poison (s : State) (c : Nat) (f : Chan → Chan) : (s.setChan c f).poison = s.poison := rfl
@[simp] theorem State.setChan_rowver (s : State) (c : Nat) (f : Chan → Chan) : (s.setChan c f).rowver = s.rowver := rfl
@[simp] theorem State.setChan_l2bad (s : State) (c : Nat) (f : Chan → Chan) : (s.setChan c f).l2bad = s.l2bad := rfl
@[simp] theorem State.setChan_strands (s : State) (c : Nat) (f : Chan → Chan) : (s.setChan c f).strands = s.strands := rfl
@[simp] theorem State.setChan_cxs (s : State) (c : Nat) (f : Chan → Chan) : (s.setChan c f).cxs = s.cxs := rfl
@[simp] theorem State.setChan_insts (s : State) (c : Nat) (f : Chan → Chan) : (s.setChan c f).insts = s.insts := rfl
@[simp] theorem State.setChan_cur (s : State) (c : Nat) (f : Chan → Chan) : (s.setChan c f).cur = s.cur := rfl
@[simp] theorem State.setChan_agenda (s : State) (c : Nat) (f : Chan → Chan) : (s.setChan c f).agenda = s.agenda := rfl
@[simp] theorem State.setChan_clock (s : State) (c : Nat) (f : Chan → Chan) : (s.setChan c f).clock = s.clock := rfl
@[simp] theorem State.setChan_turn (s : State) (c : Nat) (f : Chan → Chan) : (s.setChan c f).turn = s.turn := rfl
@[simp] theorem State.setChan_sweep (s : State) (c : Nat) (f : Chan → Chan) : (s.setChan c f).sweep = s.sweep := rfl
@[simp] theorem State.setChan_freeCtr (s : State) (c : Nat) (f : Chan → Chan) : (s.setChan c f).freeCtr = s.freeCtr := rfl
@[simp] theorem State.setChan_nextId (s : State) (c : Nat) (f : Chan → Chan) : (s.setChan c f).nextId = s.nextId := rfl
@[simp] theorem State.setChan_dies (s : State) (c : Nat) (f : Chan → Chan) : (s.setChan c f).dies = s.dies := rfl
@[simp] theorem State.setChan_cores (s : State) (c : Nat) (f : Chan → Chan) : (s.setChan c f).cores = s.cores := rfl
@[simp] theorem State.setChan_chans (s : State) (c : Nat) (f : Chan → Chan) : (s.setChan c f).chans = tset s.chans c (f (s.chan c)) := rfl
@[simp] theorem State.setChan_banks (s : State) (c : Nat) (f : Chan → Chan) : (s.setChan c f).banks = s.banks := rfl
@[simp] theorem State.setChan_units (s : State) (c : Nat) (f : Chan → Chan) : (s.setChan c f).units = s.units := rfl
@[simp] theorem State.setChan_nodes (s : State) (c : Nat) (f : Chan → Chan) : (s.setChan c f).nodes = s.nodes := rfl
@[simp] theorem State.setChan_intake (s : State) (c : Nat) (f : Chan → Chan) : (s.setChan c f).intake = s.intake := rfl
@[simp] theorem State.setChan_funcs (s : State) (c : Nat) (f : Chan → Chan) : (s.setChan c f).funcs = s.funcs := rfl
@[simp] theorem State.setChan_slices (s : State) (c : Nat) (f : Chan → Chan) : (s.setChan c f).slices = s.slices := rfl
@[simp] theorem State.setChan_mg (s : State) (c : Nat) (f : Chan → Chan) : (s.setChan c f).mg = s.mg := rfl
@[simp] theorem State.setChan_out (s : State) (c : Nat) (f : Chan → Chan) : (s.setChan c f).out = s.out := rfl

@[simp] theorem State.setBank_mem (s : State) (c b : Nat) (f : Bank → Bank) : (s.setBank c b f).mem = s.mem := rfl
@[simp] theorem State.setBank_inflight (s : State) (c b : Nat) (f : Bank → Bank) : (s.setBank c b f).inflight = s.inflight := rfl
@[simp] theorem State.setBank_applied (s : State) (c b : Nat) (f : Bank → Bank) : (s.setBank c b f).applied = s.applied := rfl
@[simp] theorem State.setBank_gran (s : State) (c b : Nat) (f : Bank → Bank) : (s.setBank c b f).gran = s.gran := rfl
@[simp] theorem State.setBank_poison (s : State) (c b : Nat) (f : Bank → Bank) : (s.setBank c b f).poison = s.poison := rfl
@[simp] theorem State.setBank_rowver (s : State) (c b : Nat) (f : Bank → Bank) : (s.setBank c b f).rowver = s.rowver := rfl
@[simp] theorem State.setBank_l2bad (s : State) (c b : Nat) (f : Bank → Bank) : (s.setBank c b f).l2bad = s.l2bad := rfl
@[simp] theorem State.setBank_strands (s : State) (c b : Nat) (f : Bank → Bank) : (s.setBank c b f).strands = s.strands := rfl
@[simp] theorem State.setBank_cxs (s : State) (c b : Nat) (f : Bank → Bank) : (s.setBank c b f).cxs = s.cxs := rfl
@[simp] theorem State.setBank_insts (s : State) (c b : Nat) (f : Bank → Bank) : (s.setBank c b f).insts = s.insts := rfl
@[simp] theorem State.setBank_cur (s : State) (c b : Nat) (f : Bank → Bank) : (s.setBank c b f).cur = s.cur := rfl
@[simp] theorem State.setBank_agenda (s : State) (c b : Nat) (f : Bank → Bank) : (s.setBank c b f).agenda = s.agenda := rfl
@[simp] theorem State.setBank_clock (s : State) (c b : Nat) (f : Bank → Bank) : (s.setBank c b f).clock = s.clock := rfl
@[simp] theorem State.setBank_turn (s : State) (c b : Nat) (f : Bank → Bank) : (s.setBank c b f).turn = s.turn := rfl
@[simp] theorem State.setBank_sweep (s : State) (c b : Nat) (f : Bank → Bank) : (s.setBank c b f).sweep = s.sweep := rfl
@[simp] theorem State.setBank_freeCtr (s : State) (c b : Nat) (f : Bank → Bank) : (s.setBank c b f).freeCtr = s.freeCtr := rfl
@[simp] theorem State.setBank_nextId (s : State) (c b : Nat) (f : Bank → Bank) : (s.setBank c b f).nextId = s.nextId := rfl
@[simp] theorem State.setBank_dies (s : State) (c b : Nat) (f : Bank → Bank) : (s.setBank c b f).dies = s.dies := rfl
@[simp] theorem State.setBank_cores (s : State) (c b : Nat) (f : Bank → Bank) : (s.setBank c b f).cores = s.cores := rfl
@[simp] theorem State.setBank_chans (s : State) (c b : Nat) (f : Bank → Bank) : (s.setBank c b f).chans = s.chans := rfl
@[simp] theorem State.setBank_banks (s : State) (c b : Nat) (f : Bank → Bank) : (s.setBank c b f).banks = tset s.banks (16 * c + b) (f (s.bank c b)) := rfl
@[simp] theorem State.setBank_units (s : State) (c b : Nat) (f : Bank → Bank) : (s.setBank c b f).units = s.units := rfl
@[simp] theorem State.setBank_nodes (s : State) (c b : Nat) (f : Bank → Bank) : (s.setBank c b f).nodes = s.nodes := rfl
@[simp] theorem State.setBank_intake (s : State) (c b : Nat) (f : Bank → Bank) : (s.setBank c b f).intake = s.intake := rfl
@[simp] theorem State.setBank_funcs (s : State) (c b : Nat) (f : Bank → Bank) : (s.setBank c b f).funcs = s.funcs := rfl
@[simp] theorem State.setBank_slices (s : State) (c b : Nat) (f : Bank → Bank) : (s.setBank c b f).slices = s.slices := rfl
@[simp] theorem State.setBank_mg (s : State) (c b : Nat) (f : Bank → Bank) : (s.setBank c b f).mg = s.mg := rfl
@[simp] theorem State.setBank_out (s : State) (c b : Nat) (f : Bank → Bank) : (s.setBank c b f).out = s.out := rfl

@[simp] theorem State.setMg_mem (s : State) (f : Mgmt → Mgmt) : (s.setMg f).mem = s.mem := rfl
@[simp] theorem State.setMg_inflight (s : State) (f : Mgmt → Mgmt) : (s.setMg f).inflight = s.inflight := rfl
@[simp] theorem State.setMg_applied (s : State) (f : Mgmt → Mgmt) : (s.setMg f).applied = s.applied := rfl
@[simp] theorem State.setMg_gran (s : State) (f : Mgmt → Mgmt) : (s.setMg f).gran = s.gran := rfl
@[simp] theorem State.setMg_poison (s : State) (f : Mgmt → Mgmt) : (s.setMg f).poison = s.poison := rfl
@[simp] theorem State.setMg_rowver (s : State) (f : Mgmt → Mgmt) : (s.setMg f).rowver = s.rowver := rfl
@[simp] theorem State.setMg_l2bad (s : State) (f : Mgmt → Mgmt) : (s.setMg f).l2bad = s.l2bad := rfl
@[simp] theorem State.setMg_strands (s : State) (f : Mgmt → Mgmt) : (s.setMg f).strands = s.strands := rfl
@[simp] theorem State.setMg_cxs (s : State) (f : Mgmt → Mgmt) : (s.setMg f).cxs = s.cxs := rfl
@[simp] theorem State.setMg_insts (s : State) (f : Mgmt → Mgmt) : (s.setMg f).insts = s.insts := rfl
@[simp] theorem State.setMg_cur (s : State) (f : Mgmt → Mgmt) : (s.setMg f).cur = s.cur := rfl
@[simp] theorem State.setMg_agenda (s : State) (f : Mgmt → Mgmt) : (s.setMg f).agenda = s.agenda := rfl
@[simp] theorem State.setMg_clock (s : State) (f : Mgmt → Mgmt) : (s.setMg f).clock = s.clock := rfl
@[simp] theorem State.setMg_turn (s : State) (f : Mgmt → Mgmt) : (s.setMg f).turn = s.turn := rfl
@[simp] theorem State.setMg_sweep (s : State) (f : Mgmt → Mgmt) : (s.setMg f).sweep = s.sweep := rfl
@[simp] theorem State.setMg_freeCtr (s : State) (f : Mgmt → Mgmt) : (s.setMg f).freeCtr = s.freeCtr := rfl
@[simp] theorem State.setMg_nextId (s : State) (f : Mgmt → Mgmt) : (s.setMg f).nextId = s.nextId := rfl
@[simp] theorem State.setMg_dies (s : State) (f : Mgmt → Mgmt) : (s.setMg f).dies = s.dies := rfl
@[simp] theorem State.setMg_cores (s : State) (f : Mgmt → Mgmt) : (s.setMg f).cores = s.cores := rfl
@[simp] theorem State.setMg_chans (s : State) (f : Mgmt → Mgmt) : (s.setMg f).chans = s.chans := rfl
@[simp] theorem State.setMg_banks (s : State) (f : Mgmt → Mgmt) : (s.setMg f).banks = s.banks := rfl
@[simp] theorem State.setMg_units (s : State) (f : Mgmt → Mgmt) : (s.setMg f).units = s.units := rfl
@[simp] theorem State.setMg_nodes (s : State) (f : Mgmt → Mgmt) : (s.setMg f).nodes = s.nodes := rfl
@[simp] theorem State.setMg_intake (s : State) (f : Mgmt → Mgmt) : (s.setMg f).intake = s.intake := rfl
@[simp] theorem State.setMg_funcs (s : State) (f : Mgmt → Mgmt) : (s.setMg f).funcs = s.funcs := rfl
@[simp] theorem State.setMg_slices (s : State) (f : Mgmt → Mgmt) : (s.setMg f).slices = s.slices := rfl
@[simp] theorem State.setMg_mg (s : State) (f : Mgmt → Mgmt) : (s.setMg f).mg = f s.mg := rfl
@[simp] theorem State.setMg_out (s : State) (f : Mgmt → Mgmt) : (s.setMg f).out = s.out := rfl

@[simp] theorem State.send_mem (s : State) (m : OutMsg) : (s.send m).mem = s.mem := rfl
@[simp] theorem State.send_inflight (s : State) (m : OutMsg) : (s.send m).inflight = s.inflight := rfl
@[simp] theorem State.send_applied (s : State) (m : OutMsg) : (s.send m).applied = s.applied := rfl
@[simp] theorem State.send_gran (s : State) (m : OutMsg) : (s.send m).gran = s.gran := rfl
@[simp] theorem State.send_poison (s : State) (m : OutMsg) : (s.send m).poison = s.poison := rfl
@[simp] theorem State.send_rowver (s : State) (m : OutMsg) : (s.send m).rowver = s.rowver := rfl
@[simp] theorem State.send_l2bad (s : State) (m : OutMsg) : (s.send m).l2bad = s.l2bad := rfl
@[simp] theorem State.send_strands (s : State) (m : OutMsg) : (s.send m).strands = s.strands := rfl
@[simp] theorem State.send_cxs (s : State) (m : OutMsg) : (s.send m).cxs = s.cxs := rfl
@[simp] theorem State.send_insts (s : State) (m : OutMsg) : (s.send m).insts = s.insts := rfl
@[simp] theorem State.send_cur (s : State) (m : OutMsg) : (s.send m).cur = s.cur := rfl
@[simp] theorem State.send_agenda (s : State) (m : OutMsg) : (s.send m).agenda = s.agenda := rfl
@[simp] theorem State.send_clock (s : State) (m : OutMsg) : (s.send m).clock = s.clock := rfl
@[simp] theorem State.send_turn (s : State) (m : OutMsg) : (s.send m).turn = s.turn := rfl
@[simp] theorem State.send_sweep (s : State) (m : OutMsg) : (s.send m).sweep = s.sweep := rfl
@[simp] theorem State.send_freeCtr (s : State) (m : OutMsg) : (s.send m).freeCtr = s.freeCtr := rfl
@[simp] theorem State.send_nextId (s : State) (m : OutMsg) : (s.send m).nextId = s.nextId := rfl
@[simp] theorem State.send_dies (s : State) (m : OutMsg) : (s.send m).dies = s.dies := rfl
@[simp] theorem State.send_cores (s : State) (m : OutMsg) : (s.send m).cores = s.cores := rfl
@[simp] theorem State.send_chans (s : State) (m : OutMsg) : (s.send m).chans = s.chans := rfl
@[simp] theorem State.send_banks (s : State) (m : OutMsg) : (s.send m).banks = s.banks := rfl
@[simp] theorem State.send_units (s : State) (m : OutMsg) : (s.send m).units = s.units := rfl
@[simp] theorem State.send_nodes (s : State) (m : OutMsg) : (s.send m).nodes = s.nodes := rfl
@[simp] theorem State.send_intake (s : State) (m : OutMsg) : (s.send m).intake = s.intake := rfl
@[simp] theorem State.send_funcs (s : State) (m : OutMsg) : (s.send m).funcs = s.funcs := rfl
@[simp] theorem State.send_slices (s : State) (m : OutMsg) : (s.send m).slices = s.slices := rfl
@[simp] theorem State.send_mg (s : State) (m : OutMsg) : (s.send m).mg = s.mg := rfl
@[simp] theorem State.send_out (s : State) (m : OutMsg) : (s.send m).out = s.out ++ [m] := rfl

/-! ## An update of a strand that may not exist -/

@[simp] theorem State.updStrand_mem (s : State) (i : Nat) (f : Strand → Strand) : (s.updStrand i f).mem = s.mem := by
  unfold State.updStrand; split <;> rfl
@[simp] theorem State.updStrand_inflight (s : State) (i : Nat) (f : Strand → Strand) : (s.updStrand i f).inflight = s.inflight := by
  unfold State.updStrand; split <;> rfl
@[simp] theorem State.updStrand_applied (s : State) (i : Nat) (f : Strand → Strand) : (s.updStrand i f).applied = s.applied := by
  unfold State.updStrand; split <;> rfl
@[simp] theorem State.updStrand_gran (s : State) (i : Nat) (f : Strand → Strand) : (s.updStrand i f).gran = s.gran := by
  unfold State.updStrand; split <;> rfl
@[simp] theorem State.updStrand_poison (s : State) (i : Nat) (f : Strand → Strand) : (s.updStrand i f).poison = s.poison := by
  unfold State.updStrand; split <;> rfl
@[simp] theorem State.updStrand_rowver (s : State) (i : Nat) (f : Strand → Strand) : (s.updStrand i f).rowver = s.rowver := by
  unfold State.updStrand; split <;> rfl
@[simp] theorem State.updStrand_l2bad (s : State) (i : Nat) (f : Strand → Strand) : (s.updStrand i f).l2bad = s.l2bad := by
  unfold State.updStrand; split <;> rfl
@[simp] theorem State.updStrand_cxs (s : State) (i : Nat) (f : Strand → Strand) : (s.updStrand i f).cxs = s.cxs := by
  unfold State.updStrand; split <;> rfl
@[simp] theorem State.updStrand_insts (s : State) (i : Nat) (f : Strand → Strand) : (s.updStrand i f).insts = s.insts := by
  unfold State.updStrand; split <;> rfl
@[simp] theorem State.updStrand_cur (s : State) (i : Nat) (f : Strand → Strand) : (s.updStrand i f).cur = s.cur := by
  unfold State.updStrand; split <;> rfl
@[simp] theorem State.updStrand_agenda (s : State) (i : Nat) (f : Strand → Strand) : (s.updStrand i f).agenda = s.agenda := by
  unfold State.updStrand; split <;> rfl
@[simp] theorem State.updStrand_clock (s : State) (i : Nat) (f : Strand → Strand) : (s.updStrand i f).clock = s.clock := by
  unfold State.updStrand; split <;> rfl
@[simp] theorem State.updStrand_turn (s : State) (i : Nat) (f : Strand → Strand) : (s.updStrand i f).turn = s.turn := by
  unfold State.updStrand; split <;> rfl
@[simp] theorem State.updStrand_sweep (s : State) (i : Nat) (f : Strand → Strand) : (s.updStrand i f).sweep = s.sweep := by
  unfold State.updStrand; split <;> rfl
@[simp] theorem State.updStrand_freeCtr (s : State) (i : Nat) (f : Strand → Strand) : (s.updStrand i f).freeCtr = s.freeCtr := by
  unfold State.updStrand; split <;> rfl
@[simp] theorem State.updStrand_nextId (s : State) (i : Nat) (f : Strand → Strand) : (s.updStrand i f).nextId = s.nextId := by
  unfold State.updStrand; split <;> rfl
@[simp] theorem State.updStrand_dies (s : State) (i : Nat) (f : Strand → Strand) : (s.updStrand i f).dies = s.dies := by
  unfold State.updStrand; split <;> rfl
@[simp] theorem State.updStrand_cores (s : State) (i : Nat) (f : Strand → Strand) : (s.updStrand i f).cores = s.cores := by
  unfold State.updStrand; split <;> rfl
@[simp] theorem State.updStrand_chans (s : State) (i : Nat) (f : Strand → Strand) : (s.updStrand i f).chans = s.chans := by
  unfold State.updStrand; split <;> rfl
@[simp] theorem State.updStrand_banks (s : State) (i : Nat) (f : Strand → Strand) : (s.updStrand i f).banks = s.banks := by
  unfold State.updStrand; split <;> rfl
@[simp] theorem State.updStrand_units (s : State) (i : Nat) (f : Strand → Strand) : (s.updStrand i f).units = s.units := by
  unfold State.updStrand; split <;> rfl
@[simp] theorem State.updStrand_nodes (s : State) (i : Nat) (f : Strand → Strand) : (s.updStrand i f).nodes = s.nodes := by
  unfold State.updStrand; split <;> rfl
@[simp] theorem State.updStrand_intake (s : State) (i : Nat) (f : Strand → Strand) : (s.updStrand i f).intake = s.intake := by
  unfold State.updStrand; split <;> rfl
@[simp] theorem State.updStrand_funcs (s : State) (i : Nat) (f : Strand → Strand) : (s.updStrand i f).funcs = s.funcs := by
  unfold State.updStrand; split <;> rfl
@[simp] theorem State.updStrand_slices (s : State) (i : Nat) (f : Strand → Strand) : (s.updStrand i f).slices = s.slices := by
  unfold State.updStrand; split <;> rfl
@[simp] theorem State.updStrand_mg (s : State) (i : Nat) (f : Strand → Strand) : (s.updStrand i f).mg = s.mg := by
  unfold State.updStrand; split <;> rfl
@[simp] theorem State.updStrand_out (s : State) (i : Nat) (f : Strand → Strand) : (s.updStrand i f).out = s.out := by
  unfold State.updStrand; split <;> rfl

@[simp] theorem State.updCx_mem (s : State) (i : Nat) (f : Cx → Cx) : (s.updCx i f).mem = s.mem := by
  unfold State.updCx; split <;> rfl
@[simp] theorem State.updCx_inflight (s : State) (i : Nat) (f : Cx → Cx) : (s.updCx i f).inflight = s.inflight := by
  unfold State.updCx; split <;> rfl
@[simp] theorem State.updCx_applied (s : State) (i : Nat) (f : Cx → Cx) : (s.updCx i f).applied = s.applied := by
  unfold State.updCx; split <;> rfl
@[simp] theorem State.updCx_gran (s : State) (i : Nat) (f : Cx → Cx) : (s.updCx i f).gran = s.gran := by
  unfold State.updCx; split <;> rfl
@[simp] theorem State.updCx_poison (s : State) (i : Nat) (f : Cx → Cx) : (s.updCx i f).poison = s.poison := by
  unfold State.updCx; split <;> rfl
@[simp] theorem State.updCx_rowver (s : State) (i : Nat) (f : Cx → Cx) : (s.updCx i f).rowver = s.rowver := by
  unfold State.updCx; split <;> rfl
@[simp] theorem State.updCx_l2bad (s : State) (i : Nat) (f : Cx → Cx) : (s.updCx i f).l2bad = s.l2bad := by
  unfold State.updCx; split <;> rfl
@[simp] theorem State.updCx_strands (s : State) (i : Nat) (f : Cx → Cx) : (s.updCx i f).strands = s.strands := by
  unfold State.updCx; split <;> rfl
@[simp] theorem State.updCx_insts (s : State) (i : Nat) (f : Cx → Cx) : (s.updCx i f).insts = s.insts := by
  unfold State.updCx; split <;> rfl
@[simp] theorem State.updCx_cur (s : State) (i : Nat) (f : Cx → Cx) : (s.updCx i f).cur = s.cur := by
  unfold State.updCx; split <;> rfl
@[simp] theorem State.updCx_agenda (s : State) (i : Nat) (f : Cx → Cx) : (s.updCx i f).agenda = s.agenda := by
  unfold State.updCx; split <;> rfl
@[simp] theorem State.updCx_clock (s : State) (i : Nat) (f : Cx → Cx) : (s.updCx i f).clock = s.clock := by
  unfold State.updCx; split <;> rfl
@[simp] theorem State.updCx_turn (s : State) (i : Nat) (f : Cx → Cx) : (s.updCx i f).turn = s.turn := by
  unfold State.updCx; split <;> rfl
@[simp] theorem State.updCx_sweep (s : State) (i : Nat) (f : Cx → Cx) : (s.updCx i f).sweep = s.sweep := by
  unfold State.updCx; split <;> rfl
@[simp] theorem State.updCx_freeCtr (s : State) (i : Nat) (f : Cx → Cx) : (s.updCx i f).freeCtr = s.freeCtr := by
  unfold State.updCx; split <;> rfl
@[simp] theorem State.updCx_nextId (s : State) (i : Nat) (f : Cx → Cx) : (s.updCx i f).nextId = s.nextId := by
  unfold State.updCx; split <;> rfl
@[simp] theorem State.updCx_dies (s : State) (i : Nat) (f : Cx → Cx) : (s.updCx i f).dies = s.dies := by
  unfold State.updCx; split <;> rfl
@[simp] theorem State.updCx_cores (s : State) (i : Nat) (f : Cx → Cx) : (s.updCx i f).cores = s.cores := by
  unfold State.updCx; split <;> rfl
@[simp] theorem State.updCx_chans (s : State) (i : Nat) (f : Cx → Cx) : (s.updCx i f).chans = s.chans := by
  unfold State.updCx; split <;> rfl
@[simp] theorem State.updCx_banks (s : State) (i : Nat) (f : Cx → Cx) : (s.updCx i f).banks = s.banks := by
  unfold State.updCx; split <;> rfl
@[simp] theorem State.updCx_units (s : State) (i : Nat) (f : Cx → Cx) : (s.updCx i f).units = s.units := by
  unfold State.updCx; split <;> rfl
@[simp] theorem State.updCx_nodes (s : State) (i : Nat) (f : Cx → Cx) : (s.updCx i f).nodes = s.nodes := by
  unfold State.updCx; split <;> rfl
@[simp] theorem State.updCx_intake (s : State) (i : Nat) (f : Cx → Cx) : (s.updCx i f).intake = s.intake := by
  unfold State.updCx; split <;> rfl
@[simp] theorem State.updCx_funcs (s : State) (i : Nat) (f : Cx → Cx) : (s.updCx i f).funcs = s.funcs := by
  unfold State.updCx; split <;> rfl
@[simp] theorem State.updCx_slices (s : State) (i : Nat) (f : Cx → Cx) : (s.updCx i f).slices = s.slices := by
  unfold State.updCx; split <;> rfl
@[simp] theorem State.updCx_mg (s : State) (i : Nat) (f : Cx → Cx) : (s.updCx i f).mg = s.mg := by
  unfold State.updCx; split <;> rfl
@[simp] theorem State.updCx_out (s : State) (i : Nat) (f : Cx → Cx) : (s.updCx i f).out = s.out := by
  unfold State.updCx; split <;> rfl

@[simp] theorem State.updNode_mem (s : State) (i : Nat) (f : Node → Node) : (s.updNode i f).mem = s.mem := by
  unfold State.updNode; split <;> rfl
@[simp] theorem State.updNode_inflight (s : State) (i : Nat) (f : Node → Node) : (s.updNode i f).inflight = s.inflight := by
  unfold State.updNode; split <;> rfl
@[simp] theorem State.updNode_applied (s : State) (i : Nat) (f : Node → Node) : (s.updNode i f).applied = s.applied := by
  unfold State.updNode; split <;> rfl
@[simp] theorem State.updNode_gran (s : State) (i : Nat) (f : Node → Node) : (s.updNode i f).gran = s.gran := by
  unfold State.updNode; split <;> rfl
@[simp] theorem State.updNode_poison (s : State) (i : Nat) (f : Node → Node) : (s.updNode i f).poison = s.poison := by
  unfold State.updNode; split <;> rfl
@[simp] theorem State.updNode_rowver (s : State) (i : Nat) (f : Node → Node) : (s.updNode i f).rowver = s.rowver := by
  unfold State.updNode; split <;> rfl
@[simp] theorem State.updNode_l2bad (s : State) (i : Nat) (f : Node → Node) : (s.updNode i f).l2bad = s.l2bad := by
  unfold State.updNode; split <;> rfl
@[simp] theorem State.updNode_strands (s : State) (i : Nat) (f : Node → Node) : (s.updNode i f).strands = s.strands := by
  unfold State.updNode; split <;> rfl
@[simp] theorem State.updNode_cxs (s : State) (i : Nat) (f : Node → Node) : (s.updNode i f).cxs = s.cxs := by
  unfold State.updNode; split <;> rfl
@[simp] theorem State.updNode_insts (s : State) (i : Nat) (f : Node → Node) : (s.updNode i f).insts = s.insts := by
  unfold State.updNode; split <;> rfl
@[simp] theorem State.updNode_cur (s : State) (i : Nat) (f : Node → Node) : (s.updNode i f).cur = s.cur := by
  unfold State.updNode; split <;> rfl
@[simp] theorem State.updNode_agenda (s : State) (i : Nat) (f : Node → Node) : (s.updNode i f).agenda = s.agenda := by
  unfold State.updNode; split <;> rfl
@[simp] theorem State.updNode_clock (s : State) (i : Nat) (f : Node → Node) : (s.updNode i f).clock = s.clock := by
  unfold State.updNode; split <;> rfl
@[simp] theorem State.updNode_turn (s : State) (i : Nat) (f : Node → Node) : (s.updNode i f).turn = s.turn := by
  unfold State.updNode; split <;> rfl
@[simp] theorem State.updNode_sweep (s : State) (i : Nat) (f : Node → Node) : (s.updNode i f).sweep = s.sweep := by
  unfold State.updNode; split <;> rfl
@[simp] theorem State.updNode_freeCtr (s : State) (i : Nat) (f : Node → Node) : (s.updNode i f).freeCtr = s.freeCtr := by
  unfold State.updNode; split <;> rfl
@[simp] theorem State.updNode_nextId (s : State) (i : Nat) (f : Node → Node) : (s.updNode i f).nextId = s.nextId := by
  unfold State.updNode; split <;> rfl
@[simp] theorem State.updNode_dies (s : State) (i : Nat) (f : Node → Node) : (s.updNode i f).dies = s.dies := by
  unfold State.updNode; split <;> rfl
@[simp] theorem State.updNode_cores (s : State) (i : Nat) (f : Node → Node) : (s.updNode i f).cores = s.cores := by
  unfold State.updNode; split <;> rfl
@[simp] theorem State.updNode_chans (s : State) (i : Nat) (f : Node → Node) : (s.updNode i f).chans = s.chans := by
  unfold State.updNode; split <;> rfl
@[simp] theorem State.updNode_banks (s : State) (i : Nat) (f : Node → Node) : (s.updNode i f).banks = s.banks := by
  unfold State.updNode; split <;> rfl
@[simp] theorem State.updNode_units (s : State) (i : Nat) (f : Node → Node) : (s.updNode i f).units = s.units := by
  unfold State.updNode; split <;> rfl
@[simp] theorem State.updNode_intake (s : State) (i : Nat) (f : Node → Node) : (s.updNode i f).intake = s.intake := by
  unfold State.updNode; split <;> rfl
@[simp] theorem State.updNode_funcs (s : State) (i : Nat) (f : Node → Node) : (s.updNode i f).funcs = s.funcs := by
  unfold State.updNode; split <;> rfl
@[simp] theorem State.updNode_slices (s : State) (i : Nat) (f : Node → Node) : (s.updNode i f).slices = s.slices := by
  unfold State.updNode; split <;> rfl
@[simp] theorem State.updNode_mg (s : State) (i : Nat) (f : Node → Node) : (s.updNode i f).mg = s.mg := by
  unfold State.updNode; split <;> rfl
@[simp] theorem State.updNode_out (s : State) (i : Nat) (f : Node → Node) : (s.updNode i f).out = s.out := by
  unfold State.updNode; split <;> rfl

/-! ## Updates of a strand's lanes -/

@[simp] theorem Strand.mapLanes_ctx (st : Strand) (m : Word) (f : Nat → Lane → Lane) : (st.mapLanes m f).ctx = st.ctx := rfl
@[simp] theorem Strand.mapLanes_cx (st : Strand) (m : Word) (f : Nat → Lane → Lane) : (st.mapLanes m f).cx = st.cx := rfl
@[simp] theorem Strand.mapLanes_wid (st : Strand) (m : Word) (f : Nat → Lane → Lane) : (st.mapLanes m f).wid = st.wid := rfl
@[simp] theorem Strand.mapLanes_vregs (st : Strand) (m : Word) (f : Nat → Lane → Lane) : (st.mapLanes m f).vregs = st.vregs := rfl
@[simp] theorem Strand.mapLanes_sregs (st : Strand) (m : Word) (f : Nat → Lane → Lane) : (st.mapLanes m f).sregs = st.sregs := rfl
@[simp] theorem Strand.mapLanes_js (st : Strand) (m : Word) (f : Nat → Lane → Lane) : (st.mapLanes m f).js = st.js := rfl
@[simp] theorem Strand.mapLanes_lcr (st : Strand) (m : Word) (f : Nat → Lane → Lane) : (st.mapLanes m f).lcr = st.lcr := rfl
@[simp] theorem Strand.mapLanes_run (st : Strand) (m : Word) (f : Nat → Lane → Lane) : (st.mapLanes m f).run = st.run := rfl
@[simp] theorem Strand.mapLanes_runEnd (st : Strand) (m : Word) (f : Nat → Lane → Lane) : (st.mapLanes m f).runEnd = st.runEnd := rfl
@[simp] theorem Strand.mapLanes_trail (st : Strand) (m : Word) (f : Nat → Lane → Lane) : (st.mapLanes m f).trail = st.trail := rfl
@[simp] theorem Strand.mapLanes_pends (st : Strand) (m : Word) (f : Nat → Lane → Lane) : (st.mapLanes m f).pends = st.pends := rfl
@[simp] theorem Strand.mapLanes_popped (st : Strand) (m : Word) (f : Nat → Lane → Lane) : (st.mapLanes m f).popped = st.popped := rfl
@[simp] theorem Strand.mapLanes_stall (st : Strand) (m : Word) (f : Nat → Lane → Lane) : (st.mapLanes m f).stall = st.stall := rfl
@[simp] theorem Strand.mapLanes_waits (st : Strand) (m : Word) (f : Nat → Lane → Lane) : (st.mapLanes m f).waits = st.waits := rfl
@[simp] theorem Strand.mapLanes_places (st : Strand) (m : Word) (f : Nat → Lane → Lane) : (st.mapLanes m f).places = st.places := rfl
@[simp] theorem Strand.mapLanes_walked (st : Strand) (m : Word) (f : Nat → Lane → Lane) : (st.mapLanes m f).walked = st.walked := rfl
@[simp] theorem Strand.mapLanes_routine (st : Strand) (m : Word) (f : Nat → Lane → Lane) : (st.mapLanes m f).routine = st.routine := rfl
@[simp] theorem Strand.mapLanes_saveForm (st : Strand) (m : Word) (f : Nat → Lane → Lane) : (st.mapLanes m f).saveForm = st.saveForm := rfl
@[simp] theorem Strand.mapLanes_deferred (st : Strand) (m : Word) (f : Nat → Lane → Lane) : (st.mapLanes m f).deferred = st.deferred := rfl
@[simp] theorem Strand.mapLanes_readyAt (st : Strand) (m : Word) (f : Nat → Lane → Lane) : (st.mapLanes m f).readyAt = st.readyAt := rfl
@[simp] theorem Strand.mapLanes_passed (st : Strand) (m : Word) (f : Nat → Lane → Lane) : (st.mapLanes m f).passed = st.passed := rfl
@[simp] theorem Strand.mapLanes_fg (st : Strand) (m : Word) (f : Nat → Lane → Lane) : (st.mapLanes m f).fg = st.fg := rfl

@[simp] theorem Strand.setLane_ctx (st : Strand) (k : Nat) (f : Lane → Lane) : (st.setLane k f).ctx = st.ctx := rfl
@[simp] theorem Strand.setLane_cx (st : Strand) (k : Nat) (f : Lane → Lane) : (st.setLane k f).cx = st.cx := rfl
@[simp] theorem Strand.setLane_wid (st : Strand) (k : Nat) (f : Lane → Lane) : (st.setLane k f).wid = st.wid := rfl
@[simp] theorem Strand.setLane_vregs (st : Strand) (k : Nat) (f : Lane → Lane) : (st.setLane k f).vregs = st.vregs := rfl
@[simp] theorem Strand.setLane_sregs (st : Strand) (k : Nat) (f : Lane → Lane) : (st.setLane k f).sregs = st.sregs := rfl
@[simp] theorem Strand.setLane_js (st : Strand) (k : Nat) (f : Lane → Lane) : (st.setLane k f).js = st.js := rfl
@[simp] theorem Strand.setLane_lcr (st : Strand) (k : Nat) (f : Lane → Lane) : (st.setLane k f).lcr = st.lcr := rfl
@[simp] theorem Strand.setLane_run (st : Strand) (k : Nat) (f : Lane → Lane) : (st.setLane k f).run = st.run := rfl
@[simp] theorem Strand.setLane_runEnd (st : Strand) (k : Nat) (f : Lane → Lane) : (st.setLane k f).runEnd = st.runEnd := rfl
@[simp] theorem Strand.setLane_trail (st : Strand) (k : Nat) (f : Lane → Lane) : (st.setLane k f).trail = st.trail := rfl
@[simp] theorem Strand.setLane_pends (st : Strand) (k : Nat) (f : Lane → Lane) : (st.setLane k f).pends = st.pends := rfl
@[simp] theorem Strand.setLane_popped (st : Strand) (k : Nat) (f : Lane → Lane) : (st.setLane k f).popped = st.popped := rfl
@[simp] theorem Strand.setLane_stall (st : Strand) (k : Nat) (f : Lane → Lane) : (st.setLane k f).stall = st.stall := rfl
@[simp] theorem Strand.setLane_waits (st : Strand) (k : Nat) (f : Lane → Lane) : (st.setLane k f).waits = st.waits := rfl
@[simp] theorem Strand.setLane_places (st : Strand) (k : Nat) (f : Lane → Lane) : (st.setLane k f).places = st.places := rfl
@[simp] theorem Strand.setLane_walked (st : Strand) (k : Nat) (f : Lane → Lane) : (st.setLane k f).walked = st.walked := rfl
@[simp] theorem Strand.setLane_routine (st : Strand) (k : Nat) (f : Lane → Lane) : (st.setLane k f).routine = st.routine := rfl
@[simp] theorem Strand.setLane_saveForm (st : Strand) (k : Nat) (f : Lane → Lane) : (st.setLane k f).saveForm = st.saveForm := rfl
@[simp] theorem Strand.setLane_deferred (st : Strand) (k : Nat) (f : Lane → Lane) : (st.setLane k f).deferred = st.deferred := rfl
@[simp] theorem Strand.setLane_readyAt (st : Strand) (k : Nat) (f : Lane → Lane) : (st.setLane k f).readyAt = st.readyAt := rfl
@[simp] theorem Strand.setLane_passed (st : Strand) (k : Nat) (f : Lane → Lane) : (st.setLane k f).passed = st.passed := rfl
@[simp] theorem Strand.setLane_fg (st : Strand) (k : Nat) (f : Lane → Lane) : (st.setLane k f).fg = st.fg := rfl

@[simp] theorem Strand.writePred_ctx (st : Strand) (m : Word) (q : Nat) (v : Nat → Bool) : (st.writePred m q v).ctx = st.ctx := rfl
@[simp] theorem Strand.writePred_cx (st : Strand) (m : Word) (q : Nat) (v : Nat → Bool) : (st.writePred m q v).cx = st.cx := rfl
@[simp] theorem Strand.writePred_wid (st : Strand) (m : Word) (q : Nat) (v : Nat → Bool) : (st.writePred m q v).wid = st.wid := rfl
@[simp] theorem Strand.writePred_vregs (st : Strand) (m : Word) (q : Nat) (v : Nat → Bool) : (st.writePred m q v).vregs = st.vregs := rfl
@[simp] theorem Strand.writePred_sregs (st : Strand) (m : Word) (q : Nat) (v : Nat → Bool) : (st.writePred m q v).sregs = st.sregs := rfl
@[simp] theorem Strand.writePred_js (st : Strand) (m : Word) (q : Nat) (v : Nat → Bool) : (st.writePred m q v).js = st.js := rfl
@[simp] theorem Strand.writePred_lcr (st : Strand) (m : Word) (q : Nat) (v : Nat → Bool) : (st.writePred m q v).lcr = st.lcr := rfl
@[simp] theorem Strand.writePred_run (st : Strand) (m : Word) (q : Nat) (v : Nat → Bool) : (st.writePred m q v).run = st.run := rfl
@[simp] theorem Strand.writePred_runEnd (st : Strand) (m : Word) (q : Nat) (v : Nat → Bool) : (st.writePred m q v).runEnd = st.runEnd := rfl
@[simp] theorem Strand.writePred_trail (st : Strand) (m : Word) (q : Nat) (v : Nat → Bool) : (st.writePred m q v).trail = st.trail := rfl
@[simp] theorem Strand.writePred_pends (st : Strand) (m : Word) (q : Nat) (v : Nat → Bool) : (st.writePred m q v).pends = st.pends := rfl
@[simp] theorem Strand.writePred_popped (st : Strand) (m : Word) (q : Nat) (v : Nat → Bool) : (st.writePred m q v).popped = st.popped := rfl
@[simp] theorem Strand.writePred_stall (st : Strand) (m : Word) (q : Nat) (v : Nat → Bool) : (st.writePred m q v).stall = st.stall := rfl
@[simp] theorem Strand.writePred_waits (st : Strand) (m : Word) (q : Nat) (v : Nat → Bool) : (st.writePred m q v).waits = st.waits := rfl
@[simp] theorem Strand.writePred_places (st : Strand) (m : Word) (q : Nat) (v : Nat → Bool) : (st.writePred m q v).places = st.places := rfl
@[simp] theorem Strand.writePred_walked (st : Strand) (m : Word) (q : Nat) (v : Nat → Bool) : (st.writePred m q v).walked = st.walked := rfl
@[simp] theorem Strand.writePred_routine (st : Strand) (m : Word) (q : Nat) (v : Nat → Bool) : (st.writePred m q v).routine = st.routine := rfl
@[simp] theorem Strand.writePred_saveForm (st : Strand) (m : Word) (q : Nat) (v : Nat → Bool) : (st.writePred m q v).saveForm = st.saveForm := rfl
@[simp] theorem Strand.writePred_deferred (st : Strand) (m : Word) (q : Nat) (v : Nat → Bool) : (st.writePred m q v).deferred = st.deferred := rfl
@[simp] theorem Strand.writePred_readyAt (st : Strand) (m : Word) (q : Nat) (v : Nat → Bool) : (st.writePred m q v).readyAt = st.readyAt := rfl
@[simp] theorem Strand.writePred_passed (st : Strand) (m : Word) (q : Nat) (v : Nat → Bool) : (st.writePred m q v).passed = st.passed := rfl
@[simp] theorem Strand.writePred_fg (st : Strand) (m : Word) (q : Nat) (v : Nat → Bool) : (st.writePred m q v).fg = st.fg := rfl

end Sys2Proof.Machine
end

