-- ==== Sys2Proof/Laws/Table.lean ====
section
/-! SUPPORT. Tables: what an entry reads as after a write, and the strands of the state through it. -/
namespace Sys2Proof.Machine

@[simp] theorem tget_tset_same {α : Type} (t : Tab α) (n : Nat) (x : α) : tget (tset t n x) n = some x := by
  induction t with
  | nil => simp [tset, tget]
  | cons p t ih =>
    obtain ⟨k, v⟩ := p
    simp only [tset]
    split
    · simp [tget]
    · split
      · simp [tget]
      · next h => simp [tget, h, ih]

theorem tget_tset_ne {α : Type} (t : Tab α) (n j : Nat) (x : α) (h : j ≠ n) : tget (tset t n x) j = tget t j := by
  induction t with
  | nil => simp [tset, tget, Ne.symm h]
  | cons p t ih =>
    obtain ⟨k, v⟩ := p
    simp only [tset]
    split
    · simp [tget, Ne.symm h]
    · split
      · next hk => subst hk; simp [tget, Ne.symm h]
      · simp [tget, ih]

/-- Writing an entry adds at most its key to the keys. -/
theorem tset_keys {α : Type} (t : Tab α) (n : Nat) (x : α) (p : Nat × α) (h : p ∈ tset t n x) : p = (n, x) ∨ p ∈ t := by
  induction t with
  | nil => simp_all [tset]
  | cons q t ih => grind [tset]

/-- A table in ascending key order stays so. -/
theorem tset_pairwise {α : Type} (t : Tab α) (n : Nat) (x : α) (h : t.Pairwise (fun a b => a.1 < b.1)) :
    (tset t n x).Pairwise (fun a b => a.1 < b.1) := by
  induction t with
  | nil => simp [tset]
  | cons q t ih =>
    obtain ⟨k, v⟩ := q
    have hk := List.pairwise_cons.1 h
    simp only [tset]
    split
    · next hn =>
      refine List.pairwise_cons.2 ⟨fun p hp => ?_, h⟩
      rcases List.mem_cons.1 hp with rfl | hp
      · exact hn
      · have := hk.1 p hp; simp only at this ⊢; omega
    · split
      · next he => subst he; exact List.pairwise_cons.2 ⟨fun p hp => hk.1 p hp, hk.2⟩
      · next hn he =>
        refine List.pairwise_cons.2 ⟨fun p hp => ?_, ih hk.2⟩
        rcases tset_keys t n x p hp with rfl | hp
        · simp only; omega
        · exact hk.1 p hp

@[simp] theorem State.strand_putStrand (s : State) (i : Nat) (st : Strand) : (s.putStrand i st).strand i = some st := by
  simp [State.strand]

theorem State.strand_putStrand_ne (s : State) (i j : Nat) (st : Strand) (h : j ≠ i) :
    (s.putStrand i st).strand j = s.strand j := by
  simp [State.strand, tget_tset_ne, h]

theorem State.updStrand_eq (s : State) (i : Nat) (f : Strand → Strand) (st : Strand) (h : s.strand i = some st) :
    s.updStrand i f = s.putStrand i (f st) := by
  simp [State.updStrand, State.putStrand, show tget s.strands i = some st from h]

@[simp] theorem State.cx_putStrand (s : State) (i : Nat) (st : Strand) (c : Nat) : (s.putStrand i st).cx c = s.cx c := rfl
@[simp] theorem State.hdrOf_putStrand (s : State) (i : Nat) (st a : Strand) : (s.putStrand i st).hdrOf a = s.hdrOf a := rfl
@[simp] theorem State.homeUnit_putStrand (s : State) (i : Nat) (st a : Strand) : (s.putStrand i st).homeUnit a = s.homeUnit a := rfl

end Sys2Proof.Machine
end

