-- ==== Sys2Proof/Laws/Issue.lean ====
section
/-! SUPPORT. Issuing an instruction of a strand that is ready for it: one equation for every instruction, and what
the shared forms of a result write. -/
namespace Sys2Proof.Machine

/-! ## The shared block pool (R100 to R102) -/

theorem Strand.blocks_le (st : Strand) : st.blocks ≤ 56 := by
  unfold Strand.blocks
  split
  · omega
  · exact Nat.le_trans (List.length_filter_le _ _) (by simp)

/-- What one strand adds to the use of a core's pool. -/
def State.poolPart (s : State) (core : Nat) (p : Nat × Strand) : Nat :=
  match p.2.ctx, s.cx p.2.cx with
  | .L, some c => if c.resident && c.core = core then max c.hdr.gmax p.2.blocks else 0
  | _, _ => 0

theorem foldl_add_sum {α : Type} (f : α → Nat) (g : Nat → α → Nat) (hg : ∀ t p, g t p = t + f p) (l : List α) (t : Nat) :
    l.foldl g t = t + (l.map f).sum := by
  induction l generalizing t with
  | nil => simp
  | cons p l ih => simp only [List.foldl_cons, hg, ih, List.map_cons, List.sum_cons]; omega

theorem State.poolUse_eq (s : State) (core : Nat) : s.poolUse core = (s.strands.map (s.poolPart core)).sum := by
  unfold State.poolUse
  rw [foldl_add_sum (s.poolPart core), Nat.zero_add]
  intro t p
  unfold State.poolPart
  (split <;> try split) <;> simp_all

theorem tset_sum {α : Type} (f : Nat × α → Nat) (t : Tab α) (n : Nat) (a b : α) (h : t.Pairwise (fun x y => x.1 < y.1))
    (ha : tget t n = some a) : ((tset t n b).map f).sum + f (n, a) = (t.map f).sum + f (n, b) := by
  induction t with
  | nil => simp [tget] at ha
  | cons q t ih =>
    obtain ⟨k, v⟩ := q
    have hk := List.pairwise_cons.1 h
    simp only [tget] at ha
    simp only [tset]
    split at ha
    · next he =>
      subst he; obtain rfl : v = a := by simpa using ha
      rw [if_neg (Nat.lt_irrefl _), if_pos rfl]; simp only [List.map_cons, List.sum_cons]; omega
    · next he =>
      have hlt : ¬ n < k := by
        intro hn
        have : ∀ t' : Tab α, (∀ p ∈ t', k < p.1) → tget t' n = none := by
          intro t' ht
          induction t' with
          | nil => rfl
          | cons p t' ih' =>
            obtain ⟨k', v'⟩ := p
            have := ht (k', v') (by simp)
            simp only [tget]
            rw [if_neg (by simp only at this; omega)]
            exact ih' fun p hp => ht p (List.mem_cons_of_mem _ hp)
        rw [this t (fun p hp => hk.1 p hp)] at ha; simp at ha
      rw [if_neg hlt, if_neg he]
      have := ih hk.2 ha
      simp only [List.map_cons, List.sum_cons]; omega

/-- A change of one warp needs no shared block beyond those there is room for. -/
theorem State.Room.lacks {s u : State} {st b : Strand} (hr : s.Room st) (hs : s.strand s.cur = some st)
    (hu : u.strands = tset s.strands s.cur b) (hc : u.cxs = s.cxs) (hctx : b.ctx = st.ctx) (hcx : b.cx = st.cx) :
    s.lacksBlock u s.cur = false := by
  have hub : u.strand s.cur = some b := by simp [State.strand, hu]
  simp only [State.lacksBlock, hs, hub]
  rcases hr with hL | ⟨hp, hroom, hq⟩
  · simp [hL]
  · have hcxeq : ∀ c, u.cx c = s.cx c := fun c => by simp [State.cx, hc]
    have hhome : u.homeUnit b = s.homeUnit st := by simp [State.homeUnit, hcxeq, hcx]
    have hpart : ∀ core p, u.poolPart core p = s.poolPart core p := fun core p => by simp [State.poolPart, hcxeq]
    have hsum := tset_sum (s.poolPart (s.homeUnit st)) s.strands s.cur st b hp hs
    have hle : s.poolPart (s.homeUnit st) (s.cur, b) ≤ s.poolPart (s.homeUnit st) (s.cur, st) + 56 := by
      simp only [State.poolPart, hctx, hcx]
      have := b.blocks_le
      split
      · split <;> omega
      · omega
    have hnew : u.poolUse (u.homeUnit b) ≤ 4096 := by
      rw [State.poolUse_eq, hu, hhome, show u.poolPart (s.homeUnit st) = s.poolPart (s.homeUnit st) from funext (hpart _)]
      rw [State.poolUse_eq] at hroom
      omega
    rw [hhome] at hnew
    simp [Nat.not_lt.2 hnew, hhome, hq]

/-! ## Issue -/

/-- In a ready strand an instruction whose effect answers `o` completes with it, where the write needs no block that
is not free. -/
theorem State.Ready.issue {s : State} {st : Strand} {h : Hd} (r : s.Ready st h) (body : State → Iss → Act) (o : Out)
    (hb : body s (s.iss st h) = .done o) (hl : s.lacksBlock o.s s.cur = false) :
    s.issue h body = s.after st h o := by
  have h1 : (h.row.winReads h.f).any (fun n => decide (st.runLen < n)) = false := by
    have := r.window
    simp only [List.all_eq_true, decide_eq_true_eq, List.any_eq_false] at this ⊢
    intro n hn; have := this n hn; omega
  have hd := r.deferred
  simp only [List.all_eq_true, Bool.not_eq_true', Bool.and_eq_false_iff] at hd
  have h2 : st.pends.find? (fun p => p.trailed && p.covers (h.row.regs st.ctx.wide h.f ++ h.more) &&
      p.flts.any (fun q => (lanesOf st.group).any q.parks)) = none := by
    rw [List.find?_eq_none]; intro p hp; rcases hd p hp with h | h <;> simp [h]
  have h3 : st.pends.any (fun p => p.trailed && !p.caps.isEmpty && p.covers (h.row.regs st.ctx.wide h.f ++ h.more)) = false := by
    rw [List.any_eq_false]; intro p hp; rcases hd p hp with h | h <;> simp [h]
  have h4 : st.fg.bind (fun g => (h.row.reads st.ctx.wide h.f).find? (fun q => (s.iss st h).g != 0 && !g.reads q)) = none := by
    have := r.readable
    cases hf : st.fg with
    | none => rfl
    | some g =>
      simp only [hf, Option.all_some, Bool.or_eq_true, beq_iff_eq, List.all_eq_true] at this
      simp only [Option.bind_some, List.find?_eq_none]
      intro q hq
      rcases this with h | h
      · simp [h]
      · simp [h q hq]
  have hb' : body s ⟨s.cur, st, st.group, if h.row.guarded then st.guarded st.group h.f.x else st.group,
      (st.lane (lowest st.group)).pc, h⟩ = .done o := hb
  have h4' : (st.fg.bind fun g => List.find? (fun q => (if h.row.guarded = true then st.guarded st.group h.f.x else st.group) != 0 &&
      !g.reads q) (h.row.reads st.ctx.wide h.f)) = none := h4
  have hrun := r.run
  simp only [State.issue, r.cur, r.issues, Bool.not_true, r.decodes, hrun, h1, h2, h3, h4', hb', hl]
  rfl

theorem rrrOfWord_rrrWord (op : Nat) (f : Rrr) (h : op < 256) : rrrOfWord (rrrWord op f) = f := by
  obtain ⟨s, d, a, b, x⟩ := f
  simp only [rrrOfWord, rrrWord, Rrr.mk.injEq]
  refine ⟨?_, ?_, ?_, ?_, ?_⟩ <;>
  · apply BitVec.eq_of_toNat_eq
    rw [BitVec.toNat_ofNat]
    have := s.isLt; have := d.isLt; have := a.isLt; have := b.isLt; have := x.isLt
    omega

/-! ## Masks -/

theorem foldl_mask (p : Nat → Bool) (n : Nat) :
    (List.range n).foldl (fun m k => if p k then m + 2 ^ k else m) 0 < 2 ^ n ∧
    ∀ j < n, ((List.range n).foldl (fun m k => if p k then m + 2 ^ k else m) 0).testBit j = p j := by
  induction n with
  | zero => simp
  | succ n ih =>
    rw [List.range_succ, List.foldl_append]
    simp only [List.foldl_cons, List.foldl_nil]
    obtain ⟨h1, h2⟩ := ih
    generalize (List.range n).foldl (fun m k => if p k then m + 2 ^ k else m) 0 = a at *
    cases hp : p n
    · refine ⟨by simp only [Bool.false_eq_true, if_false, Nat.pow_succ]; omega, fun j hj => ?_⟩
      rcases Nat.lt_succ_iff_lt_or_eq.1 hj with h | rfl
      · simpa using h2 j h
      · simp [hp, Nat.testBit_lt_two_pow h1]
    · refine ⟨by simp only [if_true, Nat.pow_succ]; omega, fun j hj => ?_⟩
      simp only [if_true]
      rcases Nat.lt_succ_iff_lt_or_eq.1 hj with h | rfl
      · rw [Nat.add_comm, Nat.testBit_two_pow_add_gt h, h2 j h]
      · rw [Nat.add_comm, Nat.testBit_two_pow_add_eq, Nat.testBit_lt_two_pow h1, hp]; rfl

/-- A lane of a mask made from a condition. -/
theorem inMask_maskOf (p : Nat → Bool) (k : Nat) (hk : k < 32) : inMask (maskOf p) k = p k := by
  have h := foldl_mask p 32
  simp only [inMask, maskOf, BitVec.getLsbD_ofNat, hk, decide_true, Bool.true_and]
  exact h.2 k hk

theorem inMask_guarded (st : Strand) (m : Word) (x : BitVec 4) (k : Nat) (hk : k < 32)
    (h : inMask (st.guarded m x) k = true) : inMask m k = true := by
  rw [Strand.guarded, inMask_maskOf _ k hk] at h
  simp_all

/-! ## What the shared forms write -/

@[simp] theorem Strand.write32_zero (st : Strand) (n : Nat) (v : Nat → Word) (w : Option VReg) : st.write32 0 n v w = st := by
  simp [Strand.write32]

theorem List.getD_range32 (f : Nat → Word) (k : Nat) (h : k < 32) : ((List.range 32).map f).getD k 0 = f k := by
  simp [List.getD, h]

/-- What one 32-bit write does: a whole form, where there is one, agrees with the values it stands for. -/
theorem Strand.write32_wrote (st : Strand) (m : Word) (d : Nat) (v : Nat → Word) (whole : Option VReg) (hd : d < 56)
    (hv : st.vregs.length = 56) (hs : st.sregs.length = 56)
    (hn : ∀ k < 32, inMask m k = true → (st.lane k).st ≠ .never)
    (hw : st.ctx = .L → ∀ w, whole = some w → ∀ k < 32, inMask m k = true → w.read k = v k) :
    st.Wrote32 (st.write32 m d v whole) m d v := by
  by_cases hm : m = 0
  · subst hm
    simp only [write32_zero, Strand.Wrote32, true_and, implies_true]
    split <;> simp [inMask]
  · refine ⟨?_, fun h => absurd h hm, ?_⟩
    · simp only [write32, if_neg hm]; split <;> rfl
    · cases hc : st.ctx <;> simp only
      · have hreg : ∀ (r : VReg) k, ({ st with vregs := st.vregs.set d r }).reg32 k d =
            if (st.lane k).st = .never then 0 else r.read k := by
          intro r k; simp [reg32, hc, Strand.lane, vreg, hd, hv]
        have hmerge : ∀ k < 32, ((st.vreg d).merge m v).read k = if inMask m k then v k else (st.vreg d).read k := by
          intro k hk; simp [VReg.merge, VReg.read, hk]
        have hne : ∀ (r : VReg) n, n ≠ d → ({ st with vregs := st.vregs.set d r }).vreg n = st.vreg n := by
          intro r n hn; simp [vreg, Ne.symm hn]
        have hform : ∃ r, st.write32 m d v whole = { st with vregs := st.vregs.set d r } ∧
            ((m = st.wholeMask ∧ whole = some r) ∨ r = (st.vreg d).merge m v) := by
          simp only [write32, if_neg hm, hc]
          cases whole with
          | none => exact ⟨_, rfl, .inr rfl⟩
          | some w =>
            by_cases h : m = st.wholeMask
            · exact ⟨w, by simp [h], .inl ⟨h, rfl⟩⟩
            · exact ⟨_, by simp [h], .inr rfl⟩
        obtain ⟨r, he, hr⟩ := hform
        rw [he]
        refine ⟨rfl, rfl, hne r, fun k hk hin => ?_, fun hnw k hk hin => ?_, fun _ hnw => ?_⟩
        · rw [hreg, if_neg (hn k hk hin)]
          rcases hr with ⟨_, hr⟩ | rfl
          · exact hw hc r hr k hk hin
          · rw [hmerge k hk, if_pos hin]
        · rcases hr with ⟨h, _⟩ | rfl
          · exact absurd h hnw
          · rw [hreg, hmerge k hk]; simp [hin, reg32, hc]
        · rcases hr with ⟨h, _⟩ | rfl
          · exact absurd h hnw
          · simp [vreg, hd, hv, VReg.merge, VReg.tag]
      all_goals
        simp only [write32, if_neg hm, hc]
        refine ⟨by simp, fun n hn => by simp [sreg, Ne.symm hn], fun _ => ⟨by simp [sreg, hd, hs], by simp⟩⟩

theorem getLsbD_one_shift (q j : Nat) (hj : j < 7) : (1#7 <<< q).getLsbD j = decide (j = q) := by
  rw [BitVec.getLsbD_shiftLeft, BitVec.getLsbD_one]
  by_cases h : j = q
  · subst h; simp [hj]
  · by_cases hlt : j < q
    · simp [h, hlt]
    · have : j - q ≠ 0 := by omega
      simp [h, this]

theorem getLsbD_setBit (p : BitVec 7) (q j : Nat) (v : Bool) (hj : j < 7) :
    (if v then p ||| (1#7 <<< q) else p &&& ~~~(1#7 <<< q)).getLsbD j = if j = q then v else p.getLsbD j := by
  cases v
  · simp only [Bool.false_eq_true, if_false, BitVec.getLsbD_and, BitVec.getLsbD_not, getLsbD_one_shift q j hj]
    by_cases h : j = q <;> simp [h, hj]
  · simp only [if_true, BitVec.getLsbD_or, getLsbD_one_shift q j hj]
    by_cases h : j = q <;> simp [h]

/-- A predicate write. -/
theorem Strand.writePred_wrote (st : Strand) (m : Word) (q : Nat) (v : Nat → Bool) :
    st.WrotePred (st.writePred m q v) m q v := by
  refine ⟨rfl, by simp [writePred, mapLanes], fun k => ?_⟩
  have hl : (st.writePred m q v).lane k =
      if inMask m k = true ∧ k < st.lanes.length then { st.lane k with preds := (if v k then (st.lane k).preds ||| (1#7 <<< q)
        else (st.lane k).preds &&& ~~~(1#7 <<< q)) } else st.lane k := by
    simp only [writePred, mapLanes, lane, List.getD_eq_getElem?_getD, List.getElem?_mapIdx]
    by_cases hk : k < st.lanes.length
    · by_cases hi : inMask m k = true <;> simp [hk, hi]
    · simp [hk]
  refine ⟨by rw [hl]; split <;> rfl, fun j hj => ?_⟩
  have hj7 : (j == 7) = false := by simp; omega
  simp only [pred, hl, hj7, Bool.false_or]
  by_cases hc : inMask m k = true ∧ k < st.lanes.length
  · rw [if_pos hc]
    simp only [getLsbD_setBit _ _ _ _ hj]
    by_cases hjq : j = q
    · rw [if_pos hjq, if_pos ⟨hc.1, hc.2, hjq⟩]
    · rw [if_neg hjq, if_neg fun h => hjq h.2.2]
  · rw [if_neg hc, if_neg fun h => hc ⟨h.1, h.2.1⟩]

/-! ## The issue form of an instruction -/

theorem hdOf_eq (op w : Nat) (r : OpRow) (h : opRow op = some r) : hdOf op w = ⟨r, rrrOfWord w, encOk r w, 4, bit w 1, []⟩ := by
  simp [hdOf, h]

theorem rrr_eq (op : Nat) (f : Rrr) (r : OpRow) (h : opRow op = some r) (ho : op < 256) :
    rrr op f = ⟨r, f, encOk r (rrrWord op f), 4, bit (rrrWord op f) 1, []⟩ := by
  rw [rrr, hdOf_eq op _ r h, rrrOfWord_rrrWord op f ho]

/-- What the decode checks of a ready instruction have established. -/
theorem State.Ready.ok {s : State} {st : Strand} {h : Hd} (r : s.Ready st h) :
    h.ok = true ∧ h.row.regsOk st.ctx.wide (s.hdrOf st).vregs h.f = true ∧ bit h.row.ctx st.ctx.bit = true := by
  have := r.decodes
  unfold State.decodeTrap at this
  split at this
  · simp at this
  · split at this
    · simp at this
    · split at this
      · simp at this
      · simp_all

/-- A field that names one register names one of the 56. -/
theorem reg_lt (k : Opr) (wide : Bool) (n : Nat) (f : Rrr) (v : BitVec 6) (hk : k = .reg) (h : k.regOk wide n f v.toNat = true)
    (hw : k.windowOk f v = true) : v.toNat < 56 := by
  subst hk; simpa [Opr.windowOk] using hw

theorem State.Ready.dest {s : State} {st : Strand} {op : Nat} {f : Rrr} {row : OpRow} (r : s.Ready st (rrr op f))
    (h : opRow op = some row) (ho : op < 256) (hk : row.kd = .reg) : f.d.toNat < 56 := by
  have := r.ok.1
  rw [rrr_eq op f row h ho] at this
  simp only [encOk, rrrOfWord_rrrWord op f ho, hk, Opr.windowOk, Bool.and_eq_true, decide_eq_true_eq] at this
  omega

/-! ## Sources -/

/-- In lane code a source reads, in a launched lane, what its shape gives the lane (R93, R96). -/
theorem Strand.srcShape_read (st : Strand) (f : BitVec 6) (k : Nat) (hc : st.ctx = .L) (hn : (st.lane k).st ≠ .never) :
    (st.srcShape f).read k = st.src k f := by
  unfold srcShape src reg32
  split
  · simp [hc]
  · simp [hc]

theorem Strand.vreg_read (st : Strand) (n k : Nat) (hc : st.ctx = .L) (hn : (st.lane k).st ≠ .never) :
    (st.vreg n).read k = st.reg32 k n := by
  simp [reg32, hc, hn]

theorem uForm_read (op : Word → Word → Word) (a b w : VReg) (k : Nat) (h : uForm op a b = some w) :
    w.read k = op (a.read k) (b.read k) := by
  unfold uForm at h; split at h <;> simp at h; subst h; rfl

theorem addForm_read (a b w : VReg) (k : Nat) (h : addForm a b = some w) : w.read k = a.read k + b.read k := by
  unfold addForm at h
  split at h <;> simp at h <;> subst h <;> simp only [VReg.read] <;> grind

theorem subForm_read (a b w : VReg) (k : Nat) (h : subForm a b = some w) : w.read k = a.read k - b.read k := by
  unfold subForm at h
  split at h <;> simp at h <;> subst h <;> simp only [VReg.read] <;> grind

theorem mulForm_read (a b w : VReg) (k : Nat) (h : mulForm a b = some w) : w.read k = a.read k * b.read k := by
  unfold mulForm at h
  split at h <;> simp at h <;> subst h <;> simp only [VReg.read] <;> grind

theorem copyForm_read (a w : VReg) (k : Nat) (h : copyForm a = some w) : w.read k = a.read k := by
  unfold copyForm at h; split at h <;> simp_all

/-! ## Register results -/

/-- A ready instruction whose effect is one 32-bit write completes with that write. -/
theorem State.Ready.put32 {s : State} {st : Strand} {h : Hd} (r : s.Ready st h) (body : State → Iss → Act)
    (v : Nat → Word) (whole : Option VReg) (hd : h.f.d.toNat < 56)
    (hb : body s (s.iss st h) = Machine.put32 s (s.iss st h) v whole)
    (hw : st.ctx = .L → ∀ w, whole = some w → ∀ k < 32, (st.lane k).st ≠ .never → inMask (s.iss st h).g k = true → w.read k = v k) :
    ∃ st', s.issue h body = s.after st h ⟨s.putStrand s.cur st', .reg h.f.d.toNat, [], false⟩ ∧
      st.Wrote32 st' (s.iss st h).g h.f.d.toNat v := by
  have hsub : ∀ k < 32, inMask (s.iss st h).g k = true → inMask st.group k = true := by
    intro k hk hin
    simp only [State.iss] at hin
    split at hin
    · exact inMask_guarded st _ _ k hk hin
    · exact hin
  have hn : ∀ k < 32, inMask (s.iss st h).g k = true → (st.lane k).st ≠ .never :=
    fun k hk hin => by rw [(r.shaped.group k hk (hsub k hk hin)).1]; decide
  have w := st.write32_wrote (s.iss st h).g h.f.d.toNat v whole hd r.shaped.vregs r.shaped.sregs hn
    (fun hc w hw1 k hk hin => hw hc w hw1 k hk (hn k hk hin) hin)
  refine ⟨_, ?_, w⟩
  refine r.issue body _ hb ?_
  refine State.Room.lacks (b := st.write32 (s.iss st h).g h.f.d.toNat v whole) r.room r.cur rfl rfl ?_ ?_ <;>
    rw [w.1]

/-- A ready instruction whose effect is a predicate write completes with that write. -/
theorem State.Ready.putPred {s : State} {st : Strand} {h : Hd} (r : s.Ready st h) (body : State → Iss → Act)
    (v : Nat → Bool) (hb : body s (s.iss st h) = Machine.putPred s (s.iss st h) v) :
    ∃ st', s.issue h body = s.after st h ⟨s.putStrand s.cur st', .nothing, [], false⟩ ∧
      st.WrotePred st' st.group (h.f.d.toNat % 8) v :=
  ⟨_, r.issue body _ hb (State.Room.lacks (b := st.writePred st.group (h.f.d.toNat % 8) v) r.room r.cur rfl rfl rfl rfl),
    st.writePred_wrote _ _ _⟩

end Sys2Proof.Machine
end

