-- ==== Sys2Proof/Laws/Memory.lean ====
section
/-! SUPPORT. The flat memory: a read after a write, and that each operation that changes memory keeps its canonical
form. -/
namespace Sys2Proof.Machine

/-- The canonical form as two plain facts. -/
theorem Memory.wfFrom_iff (m : List Host.Cell) (lo : Nat) :
    Memory.wfFrom lo m = true ↔
      m.Pairwise (fun a b => a.1 < b.1) ∧ (∀ c ∈ m, lo ≤ c.1 ∧ c.2 ≠ 0) := by
  induction m generalizing lo with
  | nil => simp [Memory.wfFrom]
  | cons c m ih =>
    obtain ⟨k, v⟩ := c
    simp only [Memory.wfFrom, Bool.and_eq_true, decide_eq_true_eq, bne_iff_ne, ih, List.pairwise_cons, List.mem_cons,
      forall_eq_or_imp]
    constructor
    · rintro ⟨⟨h1, h2⟩, h3, h4⟩
      exact ⟨⟨fun c hc => by have := (h4 c hc).1; omega, h3⟩, ⟨h1, h2⟩, fun c hc => ⟨by have := (h4 c hc).1; omega, (h4 c hc).2⟩⟩
    · rintro ⟨⟨h1, h2⟩, ⟨h3, h4⟩, h5⟩
      exact ⟨⟨h3, h4⟩, h2, fun c hc => ⟨by have := h1 c hc; omega, (h5 c hc).2⟩⟩

theorem Memory.wf_iff (m : List Host.Cell) :
    Memory.wf m = true ↔ m.Pairwise (fun a b => a.1 < b.1) ∧ ∀ c ∈ m, c.2 ≠ 0 := by
  rw [Memory.wf, Memory.wfFrom_iff]; simp

/-- Dropping cells keeps the form. -/
theorem Memory.wf_filter (m : List Host.Cell) (p : Host.Cell → Bool) (h : Memory.wf m = true) : Memory.wf (m.filter p) = true := by
  rw [Memory.wf_iff] at *
  exact ⟨h.1.filter _, fun c hc => h.2 c (List.mem_filter.1 hc).1⟩

theorem Memory.wf_mclear (m : List Host.Cell) (lo hi : Nat) (h : Memory.wf m = true) : Memory.wf (mclear m lo hi) = true :=
  Memory.wf_filter m _ h

theorem cellsOf_mem (a : Nat) (bs : List Byte) (c : Host.Cell) (h : c ∈ cellsOf a bs) :
    a ≤ c.1 ∧ c.1 < a + bs.length ∧ c.2 ≠ 0 := by
  induction bs generalizing a with
  | nil => simp [cellsOf] at h
  | cons b bs ih =>
    have later := fun g : c ∈ cellsOf (a + 1) bs => ih (a + 1) g
    simp only [cellsOf, List.length_cons] at h ⊢
    by_cases zero : b = 0
    · rw [if_pos zero] at h
      exact ⟨by have := (later h).1; omega, by have := (later h).2; omega, (later h).2.2⟩
    · rw [if_neg zero] at h
      refine (List.mem_cons.1 h).elim (fun e => ?_) (fun g => ⟨by have := (later g).1; omega, by have := (later g).2; omega, (later g).2.2⟩)
      subst e
      exact ⟨Nat.le_refl _, by simp, zero⟩

theorem cellsOf_pairwise (a : Nat) (bs : List Byte) : (cellsOf a bs).Pairwise (fun x y => x.1 < y.1) := by
  induction bs generalizing a with
  | nil => simp [cellsOf]
  | cons b bs ih =>
    simp only [cellsOf]
    split
    · exact ih _
    · exact List.pairwise_cons.2 ⟨fun c hc => by have := (cellsOf_mem _ _ _ hc).1; simp only; omega, ih _⟩

/-- Writing bytes keeps the form. -/
theorem Memory.wf_mwrite (m : List Host.Cell) (a : Nat) (bs : List Byte) (h : Memory.wf m = true) :
    Memory.wf (mwrite m a bs) = true := by
  rw [Memory.wf_iff] at *
  obtain ⟨hp, hv⟩ := h
  constructor
  · rw [mwrite, List.append_assoc, List.pairwise_append]
    refine ⟨hp.filter _, ?_, ?_⟩
    · rw [List.pairwise_append]
      refine ⟨cellsOf_pairwise a bs, hp.filter _, fun x hx y hy => ?_⟩
      have h1 := cellsOf_mem _ _ _ hx
      have h2 := (List.mem_filter.1 hy).2
      simp only [decide_eq_true_eq] at h2; omega
    · intro x hx y hy
      have h1 := (List.mem_filter.1 hx).2
      simp only [decide_eq_true_eq] at h1
      rcases List.mem_append.1 hy with hy | hy
      · have := (cellsOf_mem _ _ _ hy).1; omega
      · have h2 := (List.mem_filter.1 hy).2
        simp only [decide_eq_true_eq] at h2; omega
  · intro c hc
    simp only [mwrite, List.mem_append] at hc
    rcases hc with (hc | hc) | hc
    · exact hv c (List.mem_filter.1 hc).1
    · exact (cellsOf_mem _ _ _ hc).2.2
    · exact hv c (List.mem_filter.1 hc).1

theorem mget_absent (m : List Host.Cell) (a : Nat) (h : ∀ c ∈ m, c.1 ≠ a) : mget m a = 0 := by
  induction m with
  | nil => rfl
  | cons c m ih =>
    obtain ⟨k, v⟩ := c
    have := h (k, v) (by simp)
    simp only [ne_eq] at this
    simp only [mget, this, if_false]
    exact ih fun c hc => h c (List.mem_cons_of_mem _ hc)

theorem mget_append_right (m n : List Host.Cell) (a : Nat) (h : ∀ c ∈ m, c.1 ≠ a) : mget (m ++ n) a = mget n a := by
  induction m with
  | nil => rfl
  | cons c m ih =>
    obtain ⟨k, v⟩ := c
    have := h (k, v) (by simp)
    simp only [ne_eq] at this
    simp only [List.cons_append, mget, this, if_false]
    exact ih fun c hc => h c (List.mem_cons_of_mem _ hc)

theorem mget_append_left (m n : List Host.Cell) (a : Nat) (h : ∀ c ∈ n, c.1 ≠ a) : mget (m ++ n) a = mget m a := by
  induction m with
  | nil => exact mget_absent n a h
  | cons c m ih => obtain ⟨k, v⟩ := c; simp [mget, ih]

theorem mget_filter (m : List Host.Cell) (p : Nat → Bool) (a : Nat) :
    mget (m.filter (fun c => p c.1)) a = if p a then mget m a else 0 := by
  induction m with
  | nil => simp [mget]
  | cons c m ih =>
    obtain ⟨k, v⟩ := c
    by_cases hk : k = a
    · subst hk
      cases hp : p k <;> simp_all [List.filter, mget]
    · cases hp : p k <;> simp_all [List.filter, mget]

theorem mget_cellsOf (a : Nat) (bs : List Byte) (x : Nat) :
    mget (cellsOf a bs) x = if a ≤ x ∧ x < a + bs.length then bs.getD (x - a) 0 else 0 := by
  induction bs generalizing a with
  | nil => simp [cellsOf, mget]
  | cons b bs ih =>
    simp only [cellsOf, List.length_cons]
    by_cases hx : a = x
    · subst hx
      split
      · next hb => rw [ih, if_neg (by omega), if_pos (by omega)]; simp [hb]
      · simp [mget]
    · have key : (if a + 1 ≤ x ∧ x < a + 1 + bs.length then bs.getD (x - (a + 1)) 0 else 0)
          = if a ≤ x ∧ x < a + (bs.length + 1) then (b :: bs).getD (x - a) 0 else 0 := by
        by_cases h : a ≤ x ∧ x < a + (bs.length + 1)
        · rw [if_pos h, if_pos (by omega)]
          obtain ⟨n, rfl⟩ : ∃ n, x = a + 1 + n := ⟨x - (a + 1), by omega⟩
          rw [show a + 1 + n - (a + 1) = n by omega, show a + 1 + n - a = n + 1 by omega]
          rfl
        · rw [if_neg h, if_neg (by omega)]
      split
      · rw [ih, key]
      · rw [mget, if_neg hx, ih, key]

/-- What a byte reads as after bytes are written. -/
theorem mget_mwrite (m : List Host.Cell) (a : Nat) (bs : List Byte) (x : Nat) :
    mget (mwrite m a bs) x = if a ≤ x ∧ x < a + bs.length then bs.getD (x - a) 0 else mget m x := by
  have low : ∀ c ∈ m.filter (fun c => decide (c.1 < a)), c.1 < a := fun c hc => by simpa using (List.mem_filter.1 hc).2
  have high : ∀ c ∈ m.filter (fun c => decide (a + bs.length ≤ c.1)), a + bs.length ≤ c.1 :=
    fun c hc => by simpa using (List.mem_filter.1 hc).2
  have mid := fun c hc => cellsOf_mem a bs c hc
  rw [mwrite]
  by_cases h1 : x < a
  · rw [mget_append_left _ _ _ (fun c hc => by have := high c hc; omega),
      mget_append_left _ _ _ (fun c hc => by have := mid c hc; omega), mget_filter m (fun k => decide (k < a)),
      if_neg (by omega : ¬(a ≤ x ∧ x < a + bs.length))]
    simp [h1]
  · by_cases h2 : x < a + bs.length
    · rw [mget_append_left _ _ _ (fun c hc => by have := high c hc; omega),
        mget_append_right _ _ _ (fun c hc => by have := low c hc; omega), mget_cellsOf]
      rw [if_pos (by omega), if_pos (by omega)]
    · rw [mget_append_right _ _ _ (fun c hc => by
        rcases List.mem_append.1 hc with hc | hc
        · have := low c hc; omega
        · have := mid c hc; omega), mget_filter m (fun k => decide (a + bs.length ≤ k)),
        if_neg (by omega : ¬(a ≤ x ∧ x < a + bs.length))]
      simp [show a + bs.length ≤ x by omega]

/-- Bytes just written read back. -/
theorem mread_mwrite (m : List Host.Cell) (a : Nat) (bs : List Byte) : mread (mwrite m a bs) a bs.length = bs := by
  refine List.ext_getElem (by simp [mread]) (fun i hi _ => ?_)
  simp only [mread, List.length_map, List.length_range] at hi
  simp [mread, mget_mwrite, hi]

end Sys2Proof.Machine
end

