-- ==== Sys2Proof/Laws/PerInstr.lean ====
section
/-! SUPPORT. One lemma for each constructor of Instr: its word fits its size, and bit 0 tells the size (R18, R21, R32). -/
namespace Sys2Proof.Laws
open Machine

/-- The word of a well-formed instruction has the bits of its size and no more, and its bit 0 says which size it is. -/
def Fits.Statement (i : Instr) : Prop :=
  i.WF → encode i < 2 ^ (8 * i.size) ∧ (i.size = 4 → encode i % 2 = 1) ∧ (i.size = 2 → encode i % 2 = 0)

theorem Fits.rrrFits (op : Nat) (f : Rrr) (h : op < 256) : rrrWord op f < 2 ^ (8 * 4) ∧ (4 = 4 → rrrWord op f % 2 = 1) ∧ (4 = 2 → rrrWord op f % 2 = 0) := by
  have := f.s.isLt; have := f.d.isLt; have := f.a.isLt; have := f.b.isLt; have := f.x.isLt
  simp only [rrrWord]; omega

theorem Fits.rriFits (op : Nat) (f : Rri) (h : op < 256) : rriWord op f < 2 ^ (8 * 4) ∧ (4 = 4 → rriWord op f % 2 = 1) ∧ (4 = 2 → rriWord op f % 2 = 0) := by
  have := f.s.isLt; have := f.d.isLt; have := f.a.isLt; have := f.imm.isLt
  simp only [rriWord]; omega

theorem Fits.ri16Fits (op : Nat) (f : Ri16) (h : op < 256) : ri16Word op f < 2 ^ (8 * 4) ∧ (4 = 4 → ri16Word op f % 2 = 1) ∧ (4 = 2 → ri16Word op f % 2 = 0) := by
  have := f.s.isLt; have := f.d.isLt; have := f.imm.isLt
  simp only [ri16Word]; omega

theorem Fits.brFits (op : Nat) (f : Br) (h : op < 256) : brWord op f < 2 ^ (8 * 4) ∧ (4 = 4 → brWord op f % 2 = 1) ∧ (4 = 2 → brWord op f % 2 = 0) := by
  have := f.s.isLt; have := f.off.isLt; have := f.x.isLt
  simp only [brWord]; omega

theorem Fits.brlFits (op : Nat) (f : Brl) (h : op < 256) : brlWord op f < 2 ^ (8 * 4) ∧ (4 = 4 → brlWord op f % 2 = 1) ∧ (4 = 2 → brlWord op f % 2 = 0) := by
  have := f.s.isLt; have := f.off.isLt
  simp only [brlWord]; omega

theorem Fits.h16Fits (op : Nat) (f : H16) (h : op < 16) : h16Word op f < 2 ^ (8 * 2) ∧ (2 = 4 → h16Word op f % 2 = 1) ∧ (2 = 2 → h16Word op f % 2 = 0) := by
  have := f.s.isLt; have := f.d.isLt; have := f.b.isLt
  simp only [h16Word]; omega

theorem Fits.none : 0 < 2 ^ (8 * 0) ∧ (0 = 4 → 0 % 2 = 1) ∧ (0 = 2 → 0 % 2 = 0) := by decide

theorem Fits.mov (f) : Fits.Statement (.mov f) := fun _ => Fits.rrrFits _ f (by decide)
theorem Fits.iadd (f) : Fits.Statement (.iadd f) := fun _ => Fits.rrrFits _ f (by decide)
theorem Fits.isub (f) : Fits.Statement (.isub f) := fun _ => Fits.rrrFits _ f (by decide)
theorem Fits.imul (f) : Fits.Statement (.imul f) := fun _ => Fits.rrrFits _ f (by decide)
theorem Fits.imulhS (f) : Fits.Statement (.imulhS f) := fun _ => Fits.rrrFits _ f (by decide)
theorem Fits.imulhU (f) : Fits.Statement (.imulhU f) := fun _ => Fits.rrrFits _ f (by decide)
theorem Fits.imad (f) : Fits.Statement (.imad f) := fun _ => Fits.rrrFits _ f (by decide)
theorem Fits.iaddI64 (f) : Fits.Statement (.iaddI64 f) := fun _ => Fits.rrrFits _ f (by decide)
theorem Fits.isubI64 (f) : Fits.Statement (.isubI64 f) := fun _ => Fits.rrrFits _ f (by decide)
theorem Fits.imulI64 (f) : Fits.Statement (.imulI64 f) := fun _ => Fits.rrrFits _ f (by decide)
theorem Fits.bitAnd (f) : Fits.Statement (.bitAnd f) := fun _ => Fits.rrrFits _ f (by decide)
theorem Fits.bitOr (f) : Fits.Statement (.bitOr f) := fun _ => Fits.rrrFits _ f (by decide)
theorem Fits.bitXor (f) : Fits.Statement (.bitXor f) := fun _ => Fits.rrrFits _ f (by decide)
theorem Fits.shl (f) : Fits.Statement (.shl f) := fun _ => Fits.rrrFits _ f (by decide)
theorem Fits.shrU (f) : Fits.Statement (.shrU f) := fun _ => Fits.rrrFits _ f (by decide)
theorem Fits.shrS (f) : Fits.Statement (.shrS f) := fun _ => Fits.rrrFits _ f (by decide)
theorem Fits.iminS (f) : Fits.Statement (.iminS f) := fun _ => Fits.rrrFits _ f (by decide)
theorem Fits.imaxS (f) : Fits.Statement (.imaxS f) := fun _ => Fits.rrrFits _ f (by decide)
theorem Fits.iminU (f) : Fits.Statement (.iminU f) := fun _ => Fits.rrrFits _ f (by decide)
theorem Fits.imaxU (f) : Fits.Statement (.imaxU f) := fun _ => Fits.rrrFits _ f (by decide)
theorem Fits.popc (f) : Fits.Statement (.popc f) := fun _ => Fits.rrrFits _ f (by decide)
theorem Fits.clz (f) : Fits.Statement (.clz f) := fun _ => Fits.rrrFits _ f (by decide)
theorem Fits.bfx (f) : Fits.Statement (.bfx f) := fun _ => Fits.rrrFits _ f (by decide)
theorem Fits.bfi (f) : Fits.Statement (.bfi f) := fun _ => Fits.rrrFits _ f (by decide)
theorem Fits.icmp (f) : Fits.Statement (.icmp f) := fun _ => Fits.rrrFits _ f (by decide)
theorem Fits.icmpI64 (f) : Fits.Statement (.icmpI64 f) := fun _ => Fits.rrrFits _ f (by decide)
theorem Fits.isel (f) : Fits.Statement (.isel f) := fun _ => Fits.rrrFits _ f (by decide)
theorem Fits.movi (f) : Fits.Statement (.movi f) := fun _ => Fits.ri16Fits _ f (by decide)
theorem Fits.movhi (f) : Fits.Statement (.movhi f) := fun _ => Fits.ri16Fits _ f (by decide)
theorem Fits.iaddi (f) : Fits.Statement (.iaddi f) := fun _ => Fits.rriFits _ f (by decide)
theorem Fits.andi (f) : Fits.Statement (.andi f) := fun _ => Fits.rriFits _ f (by decide)
theorem Fits.ori (f) : Fits.Statement (.ori f) := fun _ => Fits.rriFits _ f (by decide)
theorem Fits.shli (f) : Fits.Statement (.shli f) := fun _ => Fits.rriFits _ f (by decide)
theorem Fits.shriU (f) : Fits.Statement (.shriU f) := fun _ => Fits.rriFits _ f (by decide)
theorem Fits.shriS (f) : Fits.Statement (.shriS f) := fun _ => Fits.rriFits _ f (by decide)
theorem Fits.leaTp (f) : Fits.Statement (.leaTp f) := fun _ => Fits.rrrFits _ f (by decide)
theorem Fits.rdsp (f) : Fits.Statement (.rdsp f) := fun _ => Fits.rrrFits _ f (by decide)
theorem Fits.pset (f) : Fits.Statement (.pset f) := fun _ => Fits.rrrFits _ f (by decide)
theorem Fits.predv (f) : Fits.Statement (.predv f) := fun _ => Fits.rrrFits _ f (by decide)
theorem Fits.vpred (f) : Fits.Statement (.vpred f) := fun _ => Fits.rrrFits _ f (by decide)
theorem Fits.shape (f) : Fits.Statement (.shape f) := fun _ => Fits.rrrFits _ f (by decide)
theorem Fits.unify (f) : Fits.Statement (.unify f) := fun _ => Fits.rrrFits _ f (by decide)
theorem Fits.xlaneFrom (f) : Fits.Statement (.xlaneFrom f) := fun _ => Fits.rrrFits _ f (by decide)
theorem Fits.xlaneBack (f) : Fits.Statement (.xlaneBack f) := fun _ => Fits.rrrFits _ f (by decide)
theorem Fits.xlaneFwd (f) : Fits.Statement (.xlaneFwd f) := fun _ => Fits.rrrFits _ f (by decide)
theorem Fits.xlaneFlip (f) : Fits.Statement (.xlaneFlip f) := fun _ => Fits.rrrFits _ f (by decide)
theorem Fits.bcast (f) : Fits.Statement (.bcast f) := fun _ => Fits.rrrFits _ f (by decide)
theorem Fits.matchKey (f) : Fits.Statement (.matchKey f) := fun _ => Fits.rrrFits _ f (by decide)
theorem Fits.mred (f) : Fits.Statement (.mred f) := fun _ => Fits.rrrFits _ f (by decide)
theorem Fits.fadd (f) : Fits.Statement (.fadd f) := fun _ => Fits.rrrFits _ f (by decide)
theorem Fits.fsub (f) : Fits.Statement (.fsub f) := fun _ => Fits.rrrFits _ f (by decide)
theorem Fits.fmul (f) : Fits.Statement (.fmul f) := fun _ => Fits.rrrFits _ f (by decide)
theorem Fits.ffma (f) : Fits.Statement (.ffma f) := fun _ => Fits.rrrFits _ f (by decide)
theorem Fits.fopRm (f) : Fits.Statement (.fopRm f) := fun _ => Fits.rrrFits _ f (by decide)
theorem Fits.fmin (f) : Fits.Statement (.fmin f) := fun _ => Fits.rrrFits _ f (by decide)
theorem Fits.fmax (f) : Fits.Statement (.fmax f) := fun _ => Fits.rrrFits _ f (by decide)
theorem Fits.fabs (f) : Fits.Statement (.fabs f) := fun _ => Fits.rrrFits _ f (by decide)
theorem Fits.fneg (f) : Fits.Statement (.fneg f) := fun _ => Fits.rrrFits _ f (by decide)
theorem Fits.fcmp (f) : Fits.Statement (.fcmp f) := fun _ => Fits.rrrFits _ f (by decide)
theorem Fits.frcp (f) : Fits.Statement (.frcp f) := fun _ => Fits.rrrFits _ f (by decide)
theorem Fits.frsq (f) : Fits.Statement (.frsq f) := fun _ => Fits.rrrFits _ f (by decide)
theorem Fits.fsqrt (f) : Fits.Statement (.fsqrt f) := fun _ => Fits.rrrFits _ f (by decide)
theorem Fits.fex2 (f) : Fits.Statement (.fex2 f) := fun _ => Fits.rrrFits _ f (by decide)
theorem Fits.flg2 (f) : Fits.Statement (.flg2 f) := fun _ => Fits.rrrFits _ f (by decide)
theorem Fits.fsin (f) : Fits.Statement (.fsin f) := fun _ => Fits.rrrFits _ f (by decide)
theorem Fits.fcos (f) : Fits.Statement (.fcos f) := fun _ => Fits.rrrFits _ f (by decide)
theorem Fits.hop2 (f) : Fits.Statement (.hop2 f) := fun _ => Fits.rrrFits _ f (by decide)
theorem Fits.hdot2 (f) : Fits.Statement (.hdot2 f) := fun _ => Fits.rrrFits _ f (by decide)
theorem Fits.cvtFI (f) : Fits.Statement (.cvtFI f) := fun _ => Fits.rrrFits _ f (by decide)
theorem Fits.cvtIF (f) : Fits.Statement (.cvtIF f) := fun _ => Fits.rrrFits _ f (by decide)
theorem Fits.cvtHF (f) : Fits.Statement (.cvtHF f) := fun _ => Fits.rrrFits _ f (by decide)
theorem Fits.cvtFH (f) : Fits.Statement (.cvtFH f) := fun _ => Fits.rrrFits _ f (by decide)
theorem Fits.cvtQF (f) : Fits.Statement (.cvtQF f) := fun _ => Fits.rrrFits _ f (by decide)
theorem Fits.cvtFQ (f) : Fits.Statement (.cvtFQ f) := fun _ => Fits.rrrFits _ f (by decide)
theorem Fits.packH2 (f) : Fits.Statement (.packH2 f) := fun _ => Fits.rrrFits _ f (by decide)
theorem Fits.packQ4 (f) : Fits.Statement (.packQ4 f) := fun _ => Fits.rrrFits _ f (by decide)
theorem Fits.zbenc (f) : Fits.Statement (.zbenc f) := fun _ => Fits.rrrFits _ f (by decide)
theorem Fits.zbdec (f) : Fits.Statement (.zbdec f) := fun _ => Fits.rrrFits _ f (by decide)
theorem Fits.lbind (f) : Fits.Statement (.lbind f) := fun _ => Fits.rrrFits _ f (by decide)
theorem Fits.lfree (f) : Fits.Statement (.lfree f) := fun _ => Fits.rrrFits _ f (by decide)
theorem Fits.ladd (f) : Fits.Statement (.ladd f) := fun _ => Fits.rrrFits _ f (by decide)
theorem Fits.lsub (f) : Fits.Statement (.lsub f) := fun _ => Fits.rrrFits _ f (by decide)
theorem Fits.lneg (f) : Fits.Statement (.lneg f) := fun _ => Fits.rrrFits _ f (by decide)
theorem Fits.lshl (f) : Fits.Statement (.lshl f) := fun _ => Fits.rrrFits _ f (by decide)
theorem Fits.lshrU (f) : Fits.Statement (.lshrU f) := fun _ => Fits.rrrFits _ f (by decide)
theorem Fits.lshrS (f) : Fits.Statement (.lshrS f) := fun _ => Fits.rrrFits _ f (by decide)
theorem Fits.lrot (f) : Fits.Statement (.lrot f) := fun _ => Fits.rrrFits _ f (by decide)
theorem Fits.lmad (f) : Fits.Statement (.lmad f) := fun _ => Fits.rrrFits _ f (by decide)
theorem Fits.lspill (f) : Fits.Statement (.lspill f) := fun _ => Fits.rrrFits _ f (by decide)
theorem Fits.lcmp (f) : Fits.Statement (.lcmp f) := fun _ => Fits.rrrFits _ f (by decide)
theorem Fits.lld (f) : Fits.Statement (.lld f) := fun _ => Fits.rrrFits _ f (by decide)
theorem Fits.lst (f) : Fits.Statement (.lst f) := fun _ => Fits.rrrFits _ f (by decide)
theorem Fits.lstat (f) : Fits.Statement (.lstat f) := fun _ => Fits.rrrFits _ f (by decide)
theorem Fits.ldZ8 (f) : Fits.Statement (.ldZ8 f) := fun _ => Fits.rrrFits _ f (by decide)
theorem Fits.ldS8 (f) : Fits.Statement (.ldS8 f) := fun _ => Fits.rrrFits _ f (by decide)
theorem Fits.ldZ16 (f) : Fits.Statement (.ldZ16 f) := fun _ => Fits.rrrFits _ f (by decide)
theorem Fits.ldS16 (f) : Fits.Statement (.ldS16 f) := fun _ => Fits.rrrFits _ f (by decide)
theorem Fits.ldB32 (f) : Fits.Statement (.ldB32 f) := fun _ => Fits.rrrFits _ f (by decide)
theorem Fits.ldB64 (f) : Fits.Statement (.ldB64 f) := fun _ => Fits.rrrFits _ f (by decide)
theorem Fits.ldB128 (f) : Fits.Statement (.ldB128 f) := fun _ => Fits.rrrFits _ f (by decide)
theorem Fits.stB8 (f) : Fits.Statement (.stB8 f) := fun _ => Fits.rrrFits _ f (by decide)
theorem Fits.stB16 (f) : Fits.Statement (.stB16 f) := fun _ => Fits.rrrFits _ f (by decide)
theorem Fits.stB32 (f) : Fits.Statement (.stB32 f) := fun _ => Fits.rrrFits _ f (by decide)
theorem Fits.stB64 (f) : Fits.Statement (.stB64 f) := fun _ => Fits.rrrFits _ f (by decide)
theorem Fits.stB128 (f) : Fits.Statement (.stB128 f) := fun _ => Fits.rrrFits _ f (by decide)
theorem Fits.ldAcqB32 (f) : Fits.Statement (.ldAcqB32 f) := fun _ => Fits.rrrFits _ f (by decide)
theorem Fits.ldAcqB64 (f) : Fits.Statement (.ldAcqB64 f) := fun _ => Fits.rrrFits _ f (by decide)
theorem Fits.stRelB32 (f) : Fits.Statement (.stRelB32 f) := fun _ => Fits.rrrFits _ f (by decide)
theorem Fits.stRelB64 (f) : Fits.Statement (.stRelB64 f) := fun _ => Fits.rrrFits _ f (by decide)
theorem Fits.atomAdd (f) : Fits.Statement (.atomAdd f) := fun _ => Fits.rrrFits _ f (by decide)
theorem Fits.atomMinS (f) : Fits.Statement (.atomMinS f) := fun _ => Fits.rrrFits _ f (by decide)
theorem Fits.atomMaxS (f) : Fits.Statement (.atomMaxS f) := fun _ => Fits.rrrFits _ f (by decide)
theorem Fits.atomAnd (f) : Fits.Statement (.atomAnd f) := fun _ => Fits.rrrFits _ f (by decide)
theorem Fits.atomOr (f) : Fits.Statement (.atomOr f) := fun _ => Fits.rrrFits _ f (by decide)
theorem Fits.atomXor (f) : Fits.Statement (.atomXor f) := fun _ => Fits.rrrFits _ f (by decide)
theorem Fits.atomXchg (f) : Fits.Statement (.atomXchg f) := fun _ => Fits.rrrFits _ f (by decide)
theorem Fits.atomCas (f) : Fits.Statement (.atomCas f) := fun _ => Fits.rrrFits _ f (by decide)
theorem Fits.atomFadd (f) : Fits.Statement (.atomFadd f) := fun _ => Fits.rrrFits _ f (by decide)
theorem Fits.atomBfadd2 (f) : Fits.Statement (.atomBfadd2 f) := fun _ => Fits.rrrFits _ f (by decide)
theorem Fits.redAdd (f) : Fits.Statement (.redAdd f) := fun _ => Fits.rrrFits _ f (by decide)
theorem Fits.redFadd (f) : Fits.Statement (.redFadd f) := fun _ => Fits.rrrFits _ f (by decide)
theorem Fits.cache (f) : Fits.Statement (.cache f) := fun _ => Fits.rrrFits _ f (by decide)
theorem Fits.fence (f) : Fits.Statement (.fence f) := fun _ => Fits.rrrFits _ f (by decide)
theorem Fits.xfence (f) : Fits.Statement (.xfence f) := fun _ => Fits.rrrFits _ f (by decide)
theorem Fits.forage (f) : Fits.Statement (.forage f) := fun _ => Fits.rrrFits _ f (by decide)
theorem Fits.forageTry (f) : Fits.Statement (.forageTry f) := fun _ => Fits.rrrFits _ f (by decide)
theorem Fits.home (f) : Fits.Statement (.home f) := fun _ => Fits.rrrFits _ f (by decide)
theorem Fits.fstat (f) : Fits.Statement (.fstat f) := fun _ => Fits.rrrFits _ f (by decide)
theorem Fits.br (f) : Fits.Statement (.br f) := fun _ => Fits.brFits _ f (by decide)
theorem Fits.brL (f) : Fits.Statement (.brL f) := fun _ => Fits.brlFits _ f (by decide)
theorem Fits.call (f) : Fits.Statement (.call f) := fun _ => Fits.brFits _ f (by decide)
theorem Fits.callL (f) : Fits.Statement (.callL f) := fun _ => Fits.brlFits _ f (by decide)
theorem Fits.callr (f) : Fits.Statement (.callr f) := fun _ => Fits.rrrFits _ f (by decide)
theorem Fits.jr (f) : Fits.Statement (.jr f) := fun _ => Fits.rrrFits _ f (by decide)
theorem Fits.ret (f) : Fits.Statement (.ret f) := fun _ => Fits.rrrFits _ f (by decide)
theorem Fits.exit (f) : Fits.Statement (.exit f) := fun _ => Fits.rrrFits _ f (by decide)
theorem Fits.jset (f) : Fits.Statement (.jset f) := fun _ => Fits.rrrFits _ f (by decide)
theorem Fits.jadd (f) : Fits.Statement (.jadd f) := fun _ => Fits.rrrFits _ f (by decide)
theorem Fits.join (f) : Fits.Statement (.join f) := fun _ => Fits.rrrFits _ f (by decide)
theorem Fits.trail (f) : Fits.Statement (.trail f) := fun _ => Fits.rrrFits _ f (by decide)
theorem Fits.waitr (f) : Fits.Statement (.waitr f) := fun _ => Fits.rrrFits _ f (by decide)
theorem Fits.vote (f) : Fits.Statement (.vote f) := fun _ => Fits.rrrFits _ f (by decide)
theorem Fits.wqPush (f) : Fits.Statement (.wqPush f) := fun _ => Fits.rrrFits _ f (by decide)
theorem Fits.wqPop (f) : Fits.Statement (.wqPop f) := fun _ => Fits.rrrFits _ f (by decide)
theorem Fits.brk (f) : Fits.Statement (.brk f) := fun _ => Fits.rrrFits _ f (by decide)
theorem Fits.cpL (f) : Fits.Statement (.cpL f) := fun _ => Fits.rrrFits _ f (by decide)
theorem Fits.cpT (f) : Fits.Statement (.cpT f) := fun _ => Fits.rrrFits _ f (by decide)
theorem Fits.cpG (f) : Fits.Statement (.cpG f) := fun _ => Fits.rrrFits _ f (by decide)
theorem Fits.cpGcm (f) : Fits.Statement (.cpGcm f) := fun _ => Fits.rrrFits _ f (by decide)
theorem Fits.cpStat (f) : Fits.Statement (.cpStat f) := fun _ => Fits.rrrFits _ f (by decide)
theorem Fits.cpCancel (f) : Fits.Statement (.cpCancel f) := fun _ => Fits.rrrFits _ f (by decide)
theorem Fits.barInit (f) : Fits.Statement (.barInit f) := fun _ => Fits.rrrFits _ f (by decide)
theorem Fits.barArrive (f) : Fits.Statement (.barArrive f) := fun _ => Fits.rrrFits _ f (by decide)
theorem Fits.barExpect (f) : Fits.Statement (.barExpect f) := fun _ => Fits.rrrFits _ f (by decide)
theorem Fits.barWait (f) : Fits.Statement (.barWait f) := fun _ => Fits.rrrFits _ f (by decide)
theorem Fits.barTest (f) : Fits.Statement (.barTest f) := fun _ => Fits.rrrFits _ f (by decide)
theorem Fits.barInval (f) : Fits.Statement (.barInval f) := fun _ => Fits.rrrFits _ f (by decide)
theorem Fits.obres (f) : Fits.Statement (.obres f) := fun _ => Fits.rrrFits _ f (by decide)
theorem Fits.obrel (f) : Fits.Statement (.obrel f) := fun _ => Fits.rrrFits _ f (by decide)
theorem Fits.mma (f) : Fits.Statement (.mma f) := fun _ => Fits.rrrFits _ f (by decide)
theorem Fits.mconv (f) : Fits.Statement (.mconv f) := fun _ => Fits.rrrFits _ f (by decide)
theorem Fits.mzero (f) : Fits.Statement (.mzero f) := fun _ => Fits.rrrFits _ f (by decide)
theorem Fits.mld (f) : Fits.Statement (.mld f) := fun _ => Fits.rrrFits _ f (by decide)
theorem Fits.mst (f) : Fits.Statement (.mst f) := fun _ => Fits.rrrFits _ f (by decide)
theorem Fits.mwait (f) : Fits.Statement (.mwait f) := fun _ => Fits.rrrFits _ f (by decide)
theorem Fits.mstat (f) : Fits.Statement (.mstat f) := fun _ => Fits.rrrFits _ f (by decide)
theorem Fits.cmode (f) : Fits.Statement (.cmode f) := fun _ => Fits.rrrFits _ f (by decide)
theorem Fits.cbcast (f) : Fits.Statement (.cbcast f) := fun _ => Fits.rrrFits _ f (by decide)
theorem Fits.cldRow (f) : Fits.Statement (.cldRow f) := fun _ => Fits.rrrFits _ f (by decide)
theorem Fits.cstRow (f) : Fits.Statement (.cstRow f) := fun _ => Fits.rrrFits _ f (by decide)
theorem Fits.cmac (f) : Fits.Statement (.cmac f) := fun _ => Fits.rrrFits _ f (by decide)
theorem Fits.cdot (f) : Fits.Statement (.cdot f) := fun _ => Fits.rrrFits _ f (by decide)
theorem Fits.cred (f) : Fits.Statement (.cred f) := fun _ => Fits.rrrFits _ f (by decide)
theorem Fits.cwr (f) : Fits.Statement (.cwr f) := fun _ => Fits.rrrFits _ f (by decide)
theorem Fits.clut (f) : Fits.Statement (.clut f) := fun _ => Fits.rrrFits _ f (by decide)
theorem Fits.cattn (f) : Fits.Statement (.cattn f) := fun _ => Fits.rrrFits _ f (by decide)
theorem Fits.ctblWr (f) : Fits.Statement (.ctblWr f) := fun _ => Fits.rrrFits _ f (by decide)
theorem Fits.ctblSwap (f) : Fits.Statement (.ctblSwap f) := fun _ => Fits.rrrFits _ f (by decide)
theorem Fits.csync (f) : Fits.Statement (.csync f) := fun _ => Fits.rrrFits _ f (by decide)
theorem Fits.cstat (f) : Fits.Statement (.cstat f) := fun _ => Fits.rrrFits _ f (by decide)
theorem Fits.nodeSpawn (f) : Fits.Statement (.nodeSpawn f) := fun _ => Fits.rrrFits _ f (by decide)
theorem Fits.grp (f) : Fits.Statement (.grp f) := fun _ => Fits.rrrFits _ f (by decide)
theorem Fits.sysrd (f) : Fits.Statement (.sysrd f) := fun _ => Fits.rrrFits _ f (by decide)
theorem Fits.syswr (f) : Fits.Statement (.syswr f) := fun _ => Fits.rrrFits _ f (by decide)
theorem Fits.trapi (f) : Fits.Statement (.trapi f) := fun _ => Fits.rrrFits _ f (by decide)
theorem Fits.rti (f) : Fits.Statement (.rti f) := fun _ => Fits.rrrFits _ f (by decide)
theorem Fits.mov16 (f) : Fits.Statement (.mov16 f) := fun _ => Fits.h16Fits _ f (by decide)
theorem Fits.iadd16 (f) : Fits.Statement (.iadd16 f) := fun _ => Fits.h16Fits _ f (by decide)
theorem Fits.isub16 (f) : Fits.Statement (.isub16 f) := fun _ => Fits.h16Fits _ f (by decide)
theorem Fits.imul16 (f) : Fits.Statement (.imul16 f) := fun _ => Fits.h16Fits _ f (by decide)
theorem Fits.bitAnd16 (f) : Fits.Statement (.bitAnd16 f) := fun _ => Fits.h16Fits _ f (by decide)
theorem Fits.bitOr16 (f) : Fits.Statement (.bitOr16 f) := fun _ => Fits.h16Fits _ f (by decide)
theorem Fits.bitXor16 (f) : Fits.Statement (.bitXor16 f) := fun _ => Fits.h16Fits _ f (by decide)
theorem Fits.shl16 (f) : Fits.Statement (.shl16 f) := fun _ => Fits.h16Fits _ f (by decide)
theorem Fits.shrU16 (f) : Fits.Statement (.shrU16 f) := fun _ => Fits.h16Fits _ f (by decide)
theorem Fits.shrS16 (f) : Fits.Statement (.shrS16 f) := fun _ => Fits.h16Fits _ f (by decide)
theorem Fits.iminS16 (f) : Fits.Statement (.iminS16 f) := fun _ => Fits.h16Fits _ f (by decide)
theorem Fits.imaxS16 (f) : Fits.Statement (.imaxS16 f) := fun _ => Fits.h16Fits _ f (by decide)
theorem Fits.fadd16 (f) : Fits.Statement (.fadd16 f) := fun _ => Fits.h16Fits _ f (by decide)
theorem Fits.fsub16 (f) : Fits.Statement (.fsub16 f) := fun _ => Fits.h16Fits _ f (by decide)
theorem Fits.fmul16 (f) : Fits.Statement (.fmul16 f) := fun _ => Fits.h16Fits _ f (by decide)
theorem Fits.fmax16 (f) : Fits.Statement (.fmax16 f) := fun _ => Fits.h16Fits _ f (by decide)
theorem Fits.unassignedOpcode (w) : Fits.Statement (.unassignedOpcode w) := by
  intro h
  have h : (w.toNat % 2 == 1 && (opRow (opOf w.toNat)).isNone) = true := h
  have : w.toNat % 2 = 1 := by
    rw [Bool.and_eq_true, beq_iff_eq] at h
    exact h.1
  have := w.isLt
  show w.toNat < 2 ^ (8 * 4) ∧ (4 = 4 → w.toNat % 2 = 1) ∧ (4 = 2 → w.toNat % 2 = 0)
  omega
theorem Fits.classLResultLand (x0 x1 x2 x3 x4) : Fits.Statement (.classLResultLand x0 x1 x2 x3 x4) := fun _ => Fits.none
theorem Fits.issueStarvation (x0) : Fits.Statement (.issueStarvation x0) := fun _ => Fits.none
theorem Fits.faultDelivery (x0) : Fits.Statement (.faultDelivery x0) := fun _ => Fits.none
theorem Fits.faultQueueWrite (x0) : Fits.Statement (.faultQueueWrite x0) := fun _ => Fits.none
theorem Fits.generalBlockGrant (x0) : Fits.Statement (.generalBlockGrant x0) := fun _ => Fits.none
theorem Fits.sfuQueueAdmit (x0) : Fits.Statement (.sfuQueueAdmit x0) := fun _ => Fits.none
theorem Fits.missBufferGrant (x0) : Fits.Statement (.missBufferGrant x0) := fun _ => Fits.none
theorem Fits.engineQueueRoom (x0) : Fits.Statement (.engineQueueRoom x0) := fun _ => Fits.none
theorem Fits.homeRecordGrant (x0) : Fits.Statement (.homeRecordGrant x0) := fun _ => Fits.none
theorem Fits.engineHolderFree (x0) : Fits.Statement (.engineHolderFree x0) := fun _ => Fits.none
theorem Fits.matrixQueueRoom (x0) : Fits.Statement (.matrixQueueRoom x0) := fun _ => Fits.none
theorem Fits.combBufferRoom (x0) : Fits.Statement (.combBufferRoom x0) := fun _ => Fits.none
theorem Fits.waggleEntryFree (x0) : Fits.Statement (.waggleEntryFree x0) := fun _ => Fits.none
theorem Fits.fenceWaitEnd (x0) : Fits.Statement (.fenceWaitEnd x0) := fun _ => Fits.none
theorem Fits.applyAtHome (x0 x1) : Fits.Statement (.applyAtHome x0 x1) := fun _ => Fits.none
theorem Fits.viewUpdate (x0 x1 x2) : Fits.Statement (.viewUpdate x0 x1 x2) := fun _ => Fits.none
theorem Fits.pageWalk (x0 x1) : Fits.Statement (.pageWalk x0 x1) := fun _ => Fits.none
theorem Fits.engineLeaseGrant (x0 x1) : Fits.Statement (.engineLeaseGrant x0 x1) := fun _ => Fits.none
theorem Fits.leaseExpiry (x0 x1) : Fits.Statement (.leaseExpiry x0 x1) := fun _ => Fits.none
theorem Fits.beatLand (x0 x1) : Fits.Statement (.beatLand x0 x1) := fun _ => Fits.none
theorem Fits.gcmCounterCheck (x0 x1) : Fits.Statement (.gcmCounterCheck x0 x1) := fun _ => Fits.none
theorem Fits.gcmTagVerify (x0 x1) : Fits.Statement (.gcmTagVerify x0 x1) := fun _ => Fits.none
theorem Fits.continuationArrival (x0) : Fits.Statement (.continuationArrival x0) := fun _ => Fits.none
theorem Fits.arrivalQueueAccept (x0) : Fits.Statement (.arrivalQueueAccept x0) := fun _ => Fits.none
theorem Fits.homeReturn (x0) : Fits.Statement (.homeReturn x0) := fun _ => Fits.none
theorem Fits.matrixStep (x0) : Fits.Statement (.matrixStep x0) := fun _ => Fits.none
theorem Fits.matrixCommandEnd (x0) : Fits.Statement (.matrixCommandEnd x0) := fun _ => Fits.none
theorem Fits.combInstanceStart (x0 x1) : Fits.Statement (.combInstanceStart x0 x1) := fun _ => Fits.none
theorem Fits.combWaveStart (x0) : Fits.Statement (.combWaveStart x0) := fun _ => Fits.none
theorem Fits.submissionRingRead (x0) : Fits.Statement (.submissionRingRead x0) := fun _ => Fits.none
theorem Fits.walkerIntakeDrain (x0) : Fits.Statement (.walkerIntakeDrain x0) := fun _ => Fits.none
theorem Fits.dispatchNode (x0) : Fits.Statement (.dispatchNode x0) := fun _ => Fits.none
theorem Fits.workgroupAdmission (x0 x1 x2) : Fits.Statement (.workgroupAdmission x0 x1 x2) := fun _ => Fits.none
theorem Fits.workgroupStart (x0) : Fits.Statement (.workgroupStart x0) := fun _ => Fits.none
theorem Fits.workgroupComplete (x0) : Fits.Statement (.workgroupComplete x0) := fun _ => Fits.none
theorem Fits.nodeComplete (x0) : Fits.Statement (.nodeComplete x0) := fun _ => Fits.none
theorem Fits.preempttoExpiry (x0) : Fits.Statement (.preempttoExpiry x0) := fun _ => Fits.none
theorem Fits.saveAreaWrite (x0) : Fits.Statement (.saveAreaWrite x0) := fun _ => Fits.none
theorem Fits.contextRestore (x0 x1 x2) : Fits.Statement (.contextRestore x0 x1 x2) := fun _ => Fits.none
theorem Fits.combInstanceRestore (x0) : Fits.Statement (.combInstanceRestore x0) := fun _ => Fits.none
theorem Fits.fqackRetry (x0 x1) : Fits.Statement (.fqackRetry x0 x1) := fun _ => Fits.none
theorem Fits.fqackSkip (x0 x1) : Fits.Statement (.fqackSkip x0 x1) := fun _ => Fits.none
theorem Fits.fqackKill (x0 x1) : Fits.Statement (.fqackKill x0 x1) := fun _ => Fits.none
theorem Fits.tlbinvPage (x0 x1) : Fits.Statement (.tlbinvPage x0 x1) := fun _ => Fits.none
theorem Fits.tlbinvFunction (x0) : Fits.Statement (.tlbinvFunction x0) := fun _ => Fits.none
theorem Fits.tlbinvWalkerCache (x0) : Fits.Statement (.tlbinvWalkerCache x0) := fun _ => Fits.none
theorem Fits.attrReset (x0 x1) : Fits.Statement (.attrReset x0 x1) := fun _ => Fits.none
theorem Fits.sysregWrite (x0 x1 x2) : Fits.Statement (.sysregWrite x0 x1 x2) := fun _ => Fits.none
theorem Fits.usedHalving (x0) : Fits.Statement (.usedHalving x0) := fun _ => Fits.none
theorem Fits.banklimWrite (x0 x1 x2) : Fits.Statement (.banklimWrite x0 x1 x2) := fun _ => Fits.none
theorem Fits.doorbell (x0 x1 x2) : Fits.Statement (.doorbell x0 x1 x2) := fun _ => Fits.none
theorem Fits.dispHalving : Fits.Statement (.dispHalving) := fun _ => Fits.none
theorem Fits.gangWaitExpiry (x0) : Fits.Statement (.gangWaitExpiry x0) := fun _ => Fits.none
theorem Fits.gangPreExpiry (x0) : Fits.Statement (.gangPreExpiry x0) := fun _ => Fits.none
theorem Fits.gangUnplaceable (x0) : Fits.Statement (.gangUnplaceable x0) := fun _ => Fits.none
theorem Fits.launchPacket (x0 x1 x2 x3 x4) : Fits.Statement (.launchPacket x0 x1 x2 x3 x4) := fun _ => Fits.none
theorem Fits.sliceCreate : Fits.Statement (.sliceCreate) := fun _ => Fits.none
theorem Fits.addch : Fits.Statement (.addch) := fun _ => Fits.none
theorem Fits.addcore : Fits.Statement (.addcore) := fun _ => Fits.none
theorem Fits.remch : Fits.Statement (.remch) := fun _ => Fits.none
theorem Fits.remcore : Fits.Statement (.remcore) := fun _ => Fits.none
theorem Fits.movech : Fits.Statement (.movech) := fun _ => Fits.none
theorem Fits.setparam : Fits.Statement (.setparam) := fun _ => Fits.none
theorem Fits.sliceDestroy : Fits.Statement (.sliceDestroy) := fun _ => Fits.none
theorem Fits.sliceCommandEnd : Fits.Statement (.sliceCommandEnd) := fun _ => Fits.none
theorem Fits.epochSweep (x0) : Fits.Statement (.epochSweep x0) := fun _ => Fits.none
theorem Fits.granuleRetire (x0) : Fits.Statement (.granuleRetire x0) := fun _ => Fits.none
theorem Fits.coreUncorrectableError (x0 x1) : Fits.Statement (.coreUncorrectableError x0 x1) := fun _ => Fits.none
theorem Fits.linkFailure (x0) : Fits.Statement (.linkFailure x0) := fun _ => Fits.none
theorem Fits.mmioWrite (x0 x1 x2 x3) : Fits.Statement (.mmioWrite x0 x1 x2 x3) := fun _ => Fits.none
theorem Fits.mmioRead (x0 x1 x2) : Fits.Statement (.mmioRead x0 x1 x2) := fun _ => Fits.none
theorem Fits.intcauseClear (x0 x1 x2) : Fits.Statement (.intcauseClear x0 x1 x2) := fun _ => Fits.none
theorem Fits.atsTranslationCompletion (x0 x1 x2 x3) : Fits.Statement (.atsTranslationCompletion x0 x1 x2 x3) := fun _ => Fits.none
theorem Fits.priPageResponse (x0 x1 x2 x3) : Fits.Statement (.priPageResponse x0 x1 x2 x3) := fun _ => Fits.none
theorem Fits.priTimeout (x0 x1 x2) : Fits.Statement (.priTimeout x0 x1 x2) := fun _ => Fits.none
theorem Fits.atsInvalidateRequest (x0 x1 x2) : Fits.Statement (.atsInvalidateRequest x0 x1 x2) := fun _ => Fits.none
theorem Fits.atsInvalidateCompletion (x0) : Fits.Statement (.atsInvalidateCompletion x0) := fun _ => Fits.none
theorem Fits.lockInterfaceRequest (x0) : Fits.Statement (.lockInterfaceRequest x0) := fun _ => Fits.none
theorem Fits.startInterfaceRequest (x0) : Fits.Statement (.startInterfaceRequest x0) := fun _ => Fits.none
theorem Fits.stopInterfaceRequest (x0) : Fits.Statement (.stopInterfaceRequest x0) := fun _ => Fits.none
theorem Fits.ideKm (x0 x1) : Fits.Statement (.ideKm x0 x1) := fun _ => Fits.none
theorem Fits.ideIntegrityFailure (x0) : Fits.Statement (.ideIntegrityFailure x0) := fun _ => Fits.none
theorem Fits.pfFunctionConfigChange (x0) : Fits.Statement (.pfFunctionConfigChange x0) := fun _ => Fits.none
theorem Fits.getCreni (x0 x1) : Fits.Statement (.getCreni x0 x1) := fun _ => Fits.none
theorem Fits.streamSet (x0 x1 x2 x3 x4) : Fits.Statement (.streamSet x0 x1 x2 x3 x4) := fun _ => Fits.none
theorem Fits.streamClr (x0 x1) : Fits.Statement (.streamClr x0 x1) := fun _ => Fits.none
theorem Fits.quiesceFunction (x0 x1) : Fits.Statement (.quiesceFunction x0 x1) := fun _ => Fits.none
theorem Fits.quiesceComplete (x0) : Fits.Statement (.quiesceComplete x0) := fun _ => Fits.none
theorem Fits.resumeFunction (x0) : Fits.Statement (.resumeFunction x0) := fun _ => Fits.none
theorem Fits.migkey (x0 x1 x2) : Fits.Statement (.migkey x0 x1 x2) := fun _ => Fits.none
theorem Fits.dirtyRead (x0 x1 x2) : Fits.Statement (.dirtyRead x0 x1 x2) := fun _ => Fits.none
theorem Fits.exportPage (x0 x1 x2) : Fits.Statement (.exportPage x0 x1 x2) := fun _ => Fits.none
theorem Fits.exportState (x0) : Fits.Statement (.exportState x0) := fun _ => Fits.none
theorem Fits.importPage (x0 x1 x2) : Fits.Statement (.importPage x0 x1 x2) := fun _ => Fits.none
theorem Fits.importState (x0 x1) : Fits.Statement (.importState x0 x1) := fun _ => Fits.none
theorem Fits.peerRequest (x0 x1 x2 x3 x4) : Fits.Statement (.peerRequest x0 x1 x2 x3 x4) := fun _ => Fits.none
theorem Fits.vcHold (x0 x1) : Fits.Statement (.vcHold x0 x1) := fun _ => Fits.none
theorem Fits.vcRelease (x0 x1) : Fits.Statement (.vcRelease x0 x1) := fun _ => Fits.none
theorem Fits.bufferReservationGrant (x0) : Fits.Statement (.bufferReservationGrant x0) := fun _ => Fits.none
theorem Fits.linkRetry (x0) : Fits.Statement (.linkRetry x0) := fun _ => Fits.none
theorem Fits.collectiveAck (x0 x1) : Fits.Statement (.collectiveAck x0 x1) := fun _ => Fits.none
theorem Fits.powerUp : Fits.Statement (.powerUp) := fun _ => Fits.none
theorem Fits.perst : Fits.Statement (.perst) := fun _ => Fits.none
theorem Fits.pcieHotReset : Fits.Statement (.pcieHotReset) := fun _ => Fits.none
theorem Fits.functionLevelReset (x0) : Fits.Statement (.functionLevelReset x0) := fun _ => Fits.none
theorem Fits.resetEngineCopy (x0) : Fits.Statement (.resetEngineCopy x0) := fun _ => Fits.none
theorem Fits.resetEngineGather (x0) : Fits.Statement (.resetEngineGather x0) := fun _ => Fits.none
theorem Fits.resetEngineMatrix (x0) : Fits.Statement (.resetEngineMatrix x0) := fun _ => Fits.none
theorem Fits.resetEngineComb (x0) : Fits.Statement (.resetEngineComb x0) := fun _ => Fits.none
theorem Fits.resetEngineLead (x0) : Fits.Statement (.resetEngineLead x0) := fun _ => Fits.none
theorem Fits.resetEngineCollective (x0) : Fits.Statement (.resetEngineCollective x0) := fun _ => Fits.none
theorem Fits.resetCore (x0 x1) : Fits.Statement (.resetCore x0 x1) := fun _ => Fits.none
theorem Fits.resetStack (x0) : Fits.Statement (.resetStack x0) := fun _ => Fits.none
theorem Fits.resetDie (x0) : Fits.Statement (.resetDie x0) := fun _ => Fits.none
theorem Fits.resetFunction (x0) : Fits.Statement (.resetFunction x0) := fun _ => Fits.none
theorem Fits.resetSlice (x0) : Fits.Statement (.resetSlice x0) := fun _ => Fits.none
theorem Fits.resetModuleWarm : Fits.Statement (.resetModuleWarm) := fun _ => Fits.none
theorem Fits.moduleColdReset : Fits.Statement (.moduleColdReset) := fun _ => Fits.none
theorem Fits.resetComplete : Fits.Statement (.resetComplete) := fun _ => Fits.none
theorem Fits.startReady : Fits.Statement (.startReady) := fun _ => Fits.none
theorem Fits.startFailure (x0) : Fits.Statement (.startFailure x0) := fun _ => Fits.none
theorem Fits.startWatchdogExpiry : Fits.Statement (.startWatchdogExpiry) := fun _ => Fits.none
theorem Fits.stageBegin : Fits.Statement (.stageBegin) := fun _ => Fits.none
theorem Fits.firmwareDataTransfer (x0) : Fits.Statement (.firmwareDataTransfer x0) := fun _ => Fits.none
theorem Fits.stageVerify (x0) : Fits.Statement (.stageVerify x0) := fun _ => Fits.none
theorem Fits.fwActivate : Fits.Statement (.fwActivate) := fun _ => Fits.none
theorem Fits.activationSelfCheck (x0) : Fits.Statement (.activationSelfCheck x0) := fun _ => Fits.none
theorem Fits.stageAbort : Fits.Statement (.stageAbort) := fun _ => Fits.none
theorem Fits.evonosSync : Fits.Statement (.evonosSync) := fun _ => Fits.none
theorem Fits.telemetryRead (x0) : Fits.Statement (.telemetryRead x0) := fun _ => Fits.none
theorem Fits.telemetryRefresh (x0 x1) : Fits.Statement (.telemetryRefresh x0 x1) := fun _ => Fits.none
theorem Fits.pwrcapWrite (x0) : Fits.Statement (.pwrcapWrite x0) := fun _ => Fits.none
theorem Fits.throttleStageRaise (x0) : Fits.Statement (.throttleStageRaise x0) := fun _ => Fits.none
theorem Fits.throttleStageLower (x0) : Fits.Statement (.throttleStageLower x0) := fun _ => Fits.none
theorem Fits.governorStep (x0 x1) : Fits.Statement (.governorStep x0 x1) := fun _ => Fits.none
theorem Fits.thermalWarning (x0 x1) : Fits.Statement (.thermalWarning x0 x1) := fun _ => Fits.none
theorem Fits.thermalHold (x0 x1) : Fits.Statement (.thermalHold x0 x1) := fun _ => Fits.none
theorem Fits.thermalTrip (x0 x1) : Fits.Statement (.thermalTrip x0 x1) := fun _ => Fits.none
theorem Fits.thermalTripRelease (x0) : Fits.Statement (.thermalTripRelease x0) := fun _ => Fits.none
theorem Fits.coolantFlowLow (x0) : Fits.Statement (.coolantFlowLow x0) := fun _ => Fits.none
theorem Fits.completionTimeout (x0 x1 x2 x3) : Fits.Statement (.completionTimeout x0 x1 x2 x3) := fun _ => Fits.none
theorem Fits.keyExchange (x0 x1 x2) : Fits.Statement (.keyExchange x0 x1 x2) := fun _ => Fits.none
theorem Fits.collectiveContributionArrival (x0 x1 x2) : Fits.Statement (.collectiveContributionArrival x0 x1 x2) := fun _ => Fits.none
theorem Fits.dieTlbUncorrectableError (x0) : Fits.Statement (.dieTlbUncorrectableError x0) := fun _ => Fits.none
theorem Fits.l2LineUncorrectableError (x0 x1 x2) : Fits.Statement (.l2LineUncorrectableError x0 x1 x2) := fun _ => Fits.none
theorem Fits.hubDieError : Fits.Statement (.hubDieError) := fun _ => Fits.none

end Sys2Proof.Laws
end

