-- ==== Sys2Proof/Machine/AtRest.lean ====
section
/-! DEFINITION. How a row of device DRAM is held in its cells: ciphertext, tag and replay tree (R180, R374, R375). No
instruction reads these; `State.mem` holds what an access sees (notes/assumptions/30.md). -/
namespace Sys2Proof.Machine

/-- Integrity values: the leftmost 64 bits of AES-256-GMAC under KM; domains 0 row tag, 1 span node, 2 bank root. -/
def gmac64 (km : BitVec 256) (addr domain version epoch : Nat) (bs : List Byte) : W64 :=
  let iv : BitVec 96 := BitVec.ofNat 32 addr ++ BitVec.ofNat 4 domain ++ BitVec.ofNat 28 version ++ BitVec.ofNat 32 epoch
  BitVec.ofNat 64 (beNat ((gcmTag km iv bs []).take 8))

/-- The tag of an EIR row. -/
def State.rowTag (s : State) (row : Nat) : W64 :=
  gmac64 (s.rowSlice row).km row 0 (tgetD s.rowver row 0) (s.rowEpoch row) (s.rowCells row)

/-- The row of a bank: the 1 KiB row index of row r of the bank that a row lies in. -/
def rowInBank (row r : Nat) : Nat := rowLoc (chanOf (1024 * row)) r (bankOf (1024 * row)) / 1024

/-- The span node of rows 64m to 64m + 63 of a row's bank: the XOR of their version MACs. -/
def State.spanNode (s : State) (row m : Nat) : W64 :=
  (List.range 64).foldl (fun x i =>
    let r := rowInBank row (64 * m + i)
    x ^^^ gmac64 (s.rowSlice row).km r 1 0 (s.rowEpoch r) (toLE 4 (tgetD s.rowver r 0))) 0

/-- What the sideband of an EIR row holds at bytes 32, 40 and 44 (R375): its tag, its version, and in row 64m the span
node of rows 64m to 64m + 63. -/
def State.rowSideband (s : State) (row : Nat) : List (Nat × List Byte) :=
  [(32, toLE 8 (s.rowTag row).toNat), (40, toLE 4 (tgetD s.rowver row 0 % 2 ^ 28))] ++
  (if rowOf (1024 * row) % 64 = 0 then [(44, toLE 8 (s.spanNode row (rowOf (1024 * row) / 64)).toNat)] else [])

/-- The root of a row's bank: the XOR of its span nodes' MACs. -/
def State.bankRoot (s : State) (row : Nat) : W64 :=
  let bank := 16 * chanOf (1024 * row) + bankOf (1024 * row)
  (List.range 1024).foldl (fun x m =>
    x ^^^ gmac64 (s.rowSlice row).km (64 * bank + m) 2 0 (s.rowEpoch (rowInBank row (64 * m))) (toLE 8 (s.spanNode row m).toNat)) 0

end Sys2Proof.Machine
end

