-- ==== Sys2Proof/Tests/Slice0.lean ====
section
/-! SUPPORT. Tests of the model: for every statement with hypotheses a witness that meets them, decoding and
well-formedness, and a few single steps worked out by hand from their rules. -/
set_option Elab.async false
namespace Sys2Proof.Tests
open Machine Claims

/-- A state with a warp in the middle of a run, and the same for a lead thread, an instance's thread and a forager. -/
def sL : State := State.reset.withFetchWord 32 0x70000001
def sD : State := State.reset.withFetchWord 32 0x000002D9
def sS : State := State.reset.withFetchWord 32 0x00000381
def sF : State := State.reset.withFetchWord 32 0x00000289
/-- The strand that issues. -/
def now (s : State) : Strand := (s.strand s.cur).getD (Strand.at .L 0 0 32)
/-- `s` with its issuing strand changed. -/
def turn (s : State) (f : Strand → Strand) : State := s.updStrand s.cur f

/-- Everything `State.Ready` asks, as one test. -/
def isReady (s : State) (st : Strand) (h : Hd) : Bool := decide (
  s.strand s.cur = some st ∧ st.lanes.length = (if st.ctx = .L then 32 else 1) ∧ (st.vregs.length = 56 ∧ st.sregs.length = 56) ∧
  (∀ k < 32, inMask st.group k = true → (st.lane k).st = .ready ∧ (st.lane k).act = none) ∧
  (s.canIssue s.cur st = true ∧ s.decodeTrap st h = none ∧ (h.row.long && st.runLong == 8) = false) ∧
  (h.row.winReads h.f).all (fun n => decide (n ≤ st.runLen)) = true ∧
  st.pends.all (fun p => !(p.trailed && p.covers (h.row.regs st.ctx.wide h.f ++ h.more))) = true ∧
  st.fg.all (fun g => (s.iss st h).g == 0 || (h.row.reads st.ctx.wide h.f).all g.reads) = true ∧
  (st.ctx ≠ .L ∨ (s.strands.Pairwise (fun a b => a.1 < b.1) ∧ s.poolUse (s.homeUnit st) + 56 ≤ 4096 ∧
    s.queuesBehind s.cur .block (fun t => s.homeUnit t == s.homeUnit st) = false)))

theorem ready {s : State} {st : Strand} {h : Hd} (e : isReady s st h = true) : s.Ready st h :=
  let ⟨cur, width, regs, group, goes, window, deferred, readable, room⟩ := of_decide_eq_true e
  { cur, shaped := { lanes := width, vregs := regs.1, sregs := regs.2, group }, issues := goes.1, decodes := goes.2.1, run := goes.2.2
    window, deferred, readable, room }

/-- In each state the instruction named reaches its effect in the strand that issues. -/
def Readies (l : List (State × Hd)) : Prop := ∀ e ∈ l, e.1.Ready (now e.1) e.2
theorem readies {l : List (State × Hd)} (e : l.all (fun e => isReady e.1 (now e.1) e.2) = true) : Readies l :=
  fun x h => ready (List.all_eq_true.mp e x h)
/-- Instructions of format RRR with one set of fields, in one state. -/
def forms (s : State) (ops : List Nat) (f : Rrr) : List (State × Hd) := ops.map (fun op => (s, rrr op f))

theorem witness_IntegerResults : Readies (forms sL [0x00, 0x01, 0x02, 0x03, 0x04, 0x05, 0x06, 0x0A, 0x0B, 0x0C, 0x0D, 0x0E, 0x0F, 0x10, 0x11, 0x12,
    0x13, 0x14, 0x15, 0x16, 0x17] ⟨0, 4, 6, 0, 7⟩ ++ [(sL, rrr 0x00 ⟨0, 4, 4, 0, 7⟩)]) ∧
    ((now sL).ctx = .L ∧ (sL.iss (now sL) (rrr 0x01 ⟨0, 4, 6, 0, 7⟩)).g = (now sL).wholeMask ∧ (now sL).wholeMask ≠ 0) :=
  ⟨readies (by decide +kernel), by decide +kernel⟩

theorem witness_ShortFormResults : Readies ([0x00, 0x01, 0x02, 0x03, 0x0A, 0x0B, 0x0C, 0x0D, 0x0E, 0x0F, 0x10, 0x11, 0x40, 0x41, 0x42, 0x46].map
      (fun op => (sL, hdShort op (h16Wide ⟨0, 31, 23⟩))) ++ [(sL, hdShort 0x00 (h16WideMov ⟨0, 4, 4⟩)), (sL, hdShort 0x00 (h16WideMov ⟨0, 4, 5⟩))]) ∧
    ((h16WideMov ⟨0, 4, 4⟩).d = (h16WideMov ⟨0, 4, 4⟩).a ∧ (h16WideMov ⟨0, 4, 5⟩).d ≠ (h16WideMov ⟨0, 4, 5⟩).a) :=
  ⟨readies (by decide +kernel), by decide⟩

theorem witness_ImmediateResults : Readies ([0x1D, 0x1E, 0x1F, 0x20, 0x21, 0x22].map (fun op => (sL, rri op ⟨0, 55, 6, 31⟩)) ++
    [0x1B, 0x1C].map (fun op => (sL, ri16 op ⟨0, 55, 0xFFFF⟩))) := readies (by decide +kernel)

/-- `sL` with one register changed in its lanes. -/
def sReg (n : Nat) (v : Word) : State := turn sL (fun st => { st with vregs := st.vregs.set n (.u v) })

theorem witness_PairResults : Readies (forms sL [0x07, 0x08, 0x09] ⟨0, 54, 6, 0, 7⟩ ++ forms sD [0x07] ⟨0, 55, 55, 54, 7⟩ ++
      [(sL, rrr 0x23 ⟨0, 54, 6, 0, 5⟩), (sReg 7 0x80000000, rrr 0x23 ⟨0, 54, 6, 0, 5⟩)]) ∧
    ((pointer 5 ((now sL).pair 0 6) ((now sL).src 0 0)).isSome = true ∧
      (pointer 5 ((now (sReg 7 0x80000000)).pair 0 6) ((now (sReg 7 0x80000000)).src 0 0)).isNone = true) :=
  ⟨readies (by decide +kernel), by decide +kernel⟩

theorem witness_PredicateResults : Readies (forms sL [0x18, 0x19, 0x49, 0x25] ⟨0, 6, 0, 0, 7⟩) := readies (by decide +kernel)

theorem witness_SelectAndPack : Readies [(sL, rrr 0x1A ⟨0, 4, 6, 5, 14⟩), (sL, rrr 0x26 ⟨0, 4, 0, 0, 7⟩), (sL, rrr 0x27 ⟨0, 0, 4, 0, 14⟩)] :=
  readies (by decide +kernel)

theorem witness_CrossLaneResults : Readies (forms sL [0x2A, 0x2B, 0x2C, 0x2D, 0x2E, 0x2F, 0x30, 0x28, 0x5A, 0x5B] ⟨0, 4, 6, 0, 0⟩ ++
    forms sL [0x2B] ⟨0, 4, 6, 5, 15⟩) := readies (by decide +kernel)

theorem witness_UnifyResult : Readies (forms sL [0x29] ⟨0, 6, 55, 0, 0⟩) := readies (by decide +kernel)

theorem witness_FloatResults : Readies (forms sL [0x40, 0x41, 0x42, 0x43, 0x44, 0x45, 0x46, 0x47, 0x48, 0x51, 0x52, 0x53, 0x54, 0x55, 0x56, 0x57, 0x58,
    0x59, 0x5C] ⟨0, 4, 6, 0, 0⟩) := readies (by decide +kernel)

theorem witness_SpecialValues : Readies (forms sL [0x24] ⟨0, 4, 0, 0, 8⟩ ++ forms sD [0x24] ⟨0, 4, 0, 0, 8⟩ ++ forms sL [0xA3] ⟨0, 4, 0, 0, 7⟩) ∧
    (∀ s ∈ [sL, sD], (s.cx (now s).cx).isSome = true) ∧ (now sD).ctx.wide = true ∧ (now sL).ctx = .L ∧ (now sL).group = (now sL).wholeMask :=
  ⟨readies (by decide +kernel), by decide +kernel⟩

theorem witness_VoteResult : Readies (forms sL [0xB5] ⟨0, 6, 7, 0, 2⟩ ++ forms sL [0xB5] ⟨0, 55, 7, 55, 13⟩) := readies (by decide +kernel)

/-- A class-L instruction of the issuing strand that waits for the lanes of `caps`. -/
def pend (op : Nat) (f : Rrr) (cnt : Nat) (caps : List Cap) : Pend :=
  { id := 2, op := op, f := f, pc := 0x10080, caps := caps, mask := maskOf (fun k => caps.any (fun c => c.lane == k)), dst := f.d.toNat, cnt := cnt
    whole := false, tagU := false, seq := 2 }
/-- `sL` with one such instruction. -/
def sPend (p : Pend) : State := turn { sL with nextId := 9 } (fun st => { st with pends := [p] })

/-- `sL` behind another warp of its core that waits for `k` already. -/
def sBehind (k : Stall) : State :=
  { sL with strands := tset sL.strands 2 { Strand.at .L 1 0x10080 32 with cx := 1, stall := some k, waits := some k, places := [(k, 1)] } }
def sFull : State := turn sL (fun st => { st with pends := List.replicate 16 (pend 0x4A ⟨0, 4, 6, 0, 7⟩ 1 [⟨0, 0, 0⟩]) })

theorem witness_SfuIssue : Readies (forms sL [0x4A, 0x4B, 0x4C, 0x4D, 0x4E, 0x4F, 0x50] ⟨0, 4, 6, 0, 7⟩ ++ forms sL [0x4A] ⟨0, 4, 6, 0, 0⟩ ++
      forms (sBehind .sfu) [0x4A] ⟨0, 5, 6, 0, 7⟩ ++ forms sFull [0x4A] ⟨0, 5, 6, 0, 7⟩) ∧
    (let near (s : State) := s.queuesBehind s.cur .sfu (fun t => s.homeUnit t == s.homeUnit (now s));
      sL.sfuUse (sL.homeUnit (now sL)) < 16 ∧ near sL = false ∧ near (sBehind .sfu) = true ∧ 16 ≤ sFull.sfuUse (sFull.homeUnit (now sFull))) ∧
    (sL.iss (now sL) (rrr 0x4A ⟨0, 4, 6, 0, 0⟩)).g = 0 ∧ (∀ s ∈ [sBehind .sfu, sFull], (s.iss (now s) (rrr 0x4A ⟨0, 5, 6, 0, 7⟩)).g ≠ 0) :=
  ⟨readies (by decide +kernel), by decide +kernel⟩

/-- A page of function 0 that cores 0 on wait for. -/
def miss (page : Nat) (cores : List Nat) : Miss := { fn := 0, page := page, cores := cores }
/-- `sL` with all 64 entries of its core's miss buffer in use. -/
def sMisses : State := (sReg 6 0x40000000).setDie 0 (fun d => { d with misses := (List.range 64).map (fun k => miss (1000 + k) [0]) })
/-- What an access of the issuing strand needs of its core's miss buffer. -/
def takes (s : State) (h : Hd) (w : Bool) : Option State := s.takeMisses (s.iss (now s) h) w

theorem witness_MemoryIssue : Readies (forms sL [0x80, 0x81, 0x82, 0x83, 0x84, 0x85, 0x86, 0x87, 0x88, 0x89, 0x8A, 0x8B] ⟨0, 4, 6, 0, 7⟩ ++
      forms sL [0x8C, 0x8D, 0x8E, 0x8F] ⟨0, 4, 6, 63, 7⟩ ++ forms sL [0x90, 0x91, 0x92, 0x93, 0x94, 0x95, 0x96, 0x97, 0x98, 0x99, 0x9A, 0x9B] ⟨0, 4, 6, 2, 7⟩ ++
      forms sL [0x90, 0x97, 0x9A] ⟨0, 4, 6, 3, 7⟩ ++ forms sMisses [0x84, 0x89] ⟨0, 4, 6, 0, 7⟩) ∧
    (∀ w ∈ [false, true], (takes sL (rrr 0x84 ⟨0, 4, 6, 0, 7⟩) w).isSome = true ∧ (takes sMisses (rrr 0x84 ⟨0, 4, 6, 0, 7⟩) w).isNone = true) :=
  ⟨readies (by decide +kernel), by decide +kernel⟩

theorem witness_CacheIssue : Readies (forms sL [0x9C] ⟨0, 0, 6, 0, 7⟩ ++ forms sL [0x9C] ⟨0, 4, 6, 0, 7⟩ ++ forms sMisses [0x9C] ⟨0, 0, 6, 0, 7⟩ ++
      forms (sReg 7 0x80000000) [0x9C] ⟨0, 2, 6, 0, 7⟩) ∧
    (takes sL (rrr 0x9C ⟨0, 4, 6, 0, 7⟩) false).isSome = true ∧ (takes sMisses (rrr 0x9C ⟨0, 0, 6, 0, 7⟩) false).isNone = true ∧
    ((now (sReg 7 0x80000000)).pair 0 6).toNat / 2 ^ 60 = 8 :=
  ⟨readies (by decide +kernel), by decide +kernel⟩

/-- Everything `State.Pending` asks of the issuing strand, as one test. -/
def isPending (s : State) (p : Pend) : Bool :=
  decide (s.strand s.cur = some (now s) ∧ s.savedAway s.cur = false ∧ (now s).pends.find? (fun q => q.id == p.id) = some p ∧ p.id ≠ 0)
theorem pending {s : State} {p : Pend} (e : isPending s p = true) : s.Pending s.cur (now s) p :=
  let ⟨strand, here, found, id⟩ := of_decide_eq_true e
  { strand, here, found, id }

/-- One lane of an SFU function, and a whole one whose source is U. -/
def sfuOne (c : Cap) : Pend := pend 0x50 ⟨0, 55, 6, 0, 7⟩ 1 [c]
def sfuWhole : Pend := { pend 0x4D ⟨0, 55, 6, 0, 7⟩ 1 ((List.range 32).map (fun k => ⟨k, 0, 0x3F800000⟩)) with whole := true, tagU := true }
theorem witness_SfuLands : (∀ k ∈ [0, 31], isPending (sPend (sfuOne ⟨k, 0, 0x3F800000⟩)) (sfuOne ⟨k, 0, 0x3F800000⟩) = true) ∧
    (isPending (sPend sfuWhole) sfuWhole = true ∧ sfuWhole.caps.head? = some ⟨0, 0, 0x3F800000⟩ ∧ sfuWhole.mask ≠ 0 ∧ sfuWhole.dst < 56) ∧
    ((now sL).ctx = .L ∧ (now sL).vregs.length = 56 ∧ ∀ k ∈ [0, 31], ((now sL).lane k).st ≠ .never) ∧
    (∀ op ∈ [0x4A, 0x4B, 0x4C, 0x4D, 0x4E, 0x4F, 0x50], (special op 0x7FC00000).isSome = true) ∧
    (fp32.val 0x40490FDB = .fin false 13176795 (-22) ∧ 3897667291765 * 3897667291765 ≤ 13176795 * 2 ^ (60 + ((-22 : Int) % 2).toNat) ∧
      13176795 * 2 ^ (60 + ((-22 : Int) % 2).toNat) < 3897667291766 * 3897667291766) := by
  decide +kernel

/-- All that `Reaches` asks of lane c of `p` in the issuing strand but the resolution, as one test. -/
def isAccess (s : State) (p : Pend) (c : Cap) : Bool :=
  let st := now s
  decide (isPending s p = true ∧ (st.lanes.length ≤ 32 ∧ c.lane < st.lanes.length ∧ (st.ctx ≠ .L → c.lane = 0) ∧ (st.lane c.lane).st ≠ .never) ∧
    (st.vregs.length = 56 ∧ st.sregs.length = 56 ∧ p.dst + p.cnt ≤ 56) ∧ p.cnt = accCount p.op st.ctx.wide p.f ∧
    (c ∈ p.caps ∧ p.caps.filter (fun d => decide (d.lane = c.lane)) = [c]) ∧ (s.die (dieOfUnit (s.unitOf st))).misses = [] ∧
    (∀ w ∈ s.inflight, (w.strand, w.lane) = st.thread s.cur c.lane → w.strong = false) ∧ s.workDone s.cur c.lane p.f.b p.seq = true)
/-- The resolution of that lane. -/
def resolution (s : State) (p : Pend) (c : Cap) : State × W64 × Rs :=
  s.resolve (now s) (p.addrLane c.lane) c.ptr (accOff p.op p.f + p.limbOff c.lane) (accSize p.op p.f)
    { accNeed p.op with who := some (2 * p.id) } (isAtom p.op || isRed p.op)
theorem access_reaches {s s1 : State} {p : Pend} {c : Cap} {q : W64} {out : Rs} (e : isAccess s p c = true) (hr : resolution s p c = (s1, q, out))
    (hk : s1.strand s.cur = some (now s)) : Reaches s s1 s.cur (now s) p c q out :=
  let ⟨waits, lanes, regs, count, found, walked, strong, release⟩ := of_decide_eq_true e
  { pending := pending waits, lanes, regs, count, found, walked, strong := fun _ => strong, release := fun _ => release, resolved := hr, kept := hk }
/-- That lane comes to an outcome that `good` accepts. -/
def isReached (s : State) (p : Pend) (c : Cap) (good : State → W64 → Rs → Bool) : Bool :=
  let r := resolution s p c
  isAccess s p c && decide (r.1.strand s.cur = some (now s)) && good r.1 r.2.1 r.2.2
theorem reached {s : State} {p : Pend} {c : Cap} {good : State → W64 → Rs → Bool} (e : isReached s p c good = true) :
    ∃ s1 q out, Reaches s s1 s.cur (now s) p c q out ∧ good s1 q out = true := by
  simp only [isReached, Bool.and_eq_true, decide_eq_true_eq] at e
  exact ⟨_, _, _, access_reaches e.1.1 rfl e.1.2, e.2⟩

/-- What `Reads` asks of n bytes at a place, and that the view holds them. -/
def isRead (s1 : State) (i : Nat) (st : Strand) (p : Pend) (c : Cap) (shared : Bool) (path : Path) (loc n : Nat) : Bool :=
  let t := st.thread i c.lane
  s1.inflight.all (fun w => !w.overlaps loc n || !decide ((w.strand, w.lane) = t) || w.path != path || (w.op == .store && !shared)) &&
  !s1.mustWait (p.ord c.lane).must path loc n (fun w => w.strand == t.1 && w.lane == t.2 && w.path == path) &&
  (s1.look (ordOf st p c) t.1 t.2 path (dieOfUnit (s1.unitOf st)) loc n).isSome
/-- What `Free` asks. -/
def isFree (s1 : State) (i : Nat) (st : Strand) (p : Pend) (c : Cap) (path : Path) (loc n : Nat) : Bool :=
  s1.inflight.all (fun w => !w.overlaps loc n || !decide ((w.strand, w.lane) = st.thread i c.lane)) &&
  !s1.mustWait (p.ord c.lane).must path loc n (fun _ => false)
/-- A place that its home takes, with more of it. -/
def takesAt (p : Pend) (more : State → Nat → Path → Bool) (s1 : State) (_ : W64) : Rs → Bool
  | .place loc path fn => !s1.homeHeld loc && (s1.homeRefuses fn loc (accSize p.op p.f) (isAtom p.op)).isNone && more s1 loc path
  | _ => false
/-- An access of lane 31, and one of the whole warp through a U pointer. -/
def access (op : Nat) (b : BitVec 6) (p : W64) : Pend := pend op ⟨0, 50, 6, b, 7⟩ (accCount op false ⟨0, 50, 6, b, 7⟩) [⟨31, p, 5⟩]
def accessWhole : Pend := { pend 0x84 ⟨0, 50, 6, 0, 7⟩ 1 ((List.range 32).map (fun k => ⟨k, 0x10080, 0⟩)) with whole := true, tagU := true }
/-- Sixteen bytes of the host, at 0x40000000, as the die's TLB has them; the lower half of a read is not there, or is. -/
def half (v : Option Nat) : Pend := { access 0x86 0 0x40000000 with ords := [{ lane := 31, wid := 4, must := [], carry := [], rel := 0, half := v }] }
def sFar (p : Pend) : State := (sPend p).setDie 0 (fun d => { d with
  tlb := [{ fn := 0, base := 0x40000000, size := 2 ^ 30, leaf := 0x20000000000003FB }, { fn := 0, base := 0, size := 65536, leaf := 0, ats := some (0, true, true) }] })
def lane31 (p : Pend) : Cap := p.caps.getD 0 ⟨31, 0, 0⟩

theorem witness_LoadLands :
    -- near memory: the ordinary loads, those that acquire, the atomics
    (∀ op ∈ [0x80, 0x81, 0x82, 0x83, 0x84, 0x85, 0x86], let p := access op 0 0x10080
      isReached (sPend p) p (lane31 p) (takesAt p fun s1 loc path => !halved path loc (accSize op p.f) &&
        isRead s1 1 (now (sPend p)) p (lane31 p) false path loc (accSize op p.f)) = true ∧
      (sPend p).orderOk (now (sPend p)) p (lane31 p) = true ∧ (sPend p).sharers (now (sPend p)) p (lane31 p) = []) ∧
    (∀ e ∈ [(0x8C, 63), (0x8D, 63), (0x90, 3), (0x91, 2), (0x92, 2), (0x93, 3), (0x94, 2), (0x95, 2), (0x96, 3), (0x97, 2), (0x97, 3), (0x98, 2), (0x99, 2)],
      let p := access e.1 e.2 0x10080
      isReached (sPend p) p (lane31 p) (takesAt p fun s1 loc path => s1.inflight.isEmpty && !isPeer loc &&
        isFree s1 1 (now (sPend p)) p (lane31 p) path loc (accSize p.op p.f)) = true ∧ (sPend p).orderOk (now (sPend p)) p (lane31 p) = true) ∧
    -- a whole load through a U pointer
    (isReached (sPend accessWhole) accessWhole ⟨0, 0x10080, 0⟩ (takesAt accessWhole fun s1 loc path =>
        isRead s1 1 (now (sPend accessWhole)) accessWhole ⟨0, 0x10080, 0⟩ false path loc 4) = true ∧
      accessWhole.caps.head? = some ⟨0, 0x10080, 0⟩ ∧ accessWhole.caps.all ((sPend accessWhole).orderOk (now (sPend accessWhole)) { accessWhole with caps := [] }) = true) ∧
    -- the halves of 16 bytes of the host
    (∀ e ∈ [(none, 0), (some 7, 8)], let p := half e.1
      isReached (sFar p) p (lane31 p) (takesAt p fun s1 loc path => halved path loc 16 && isRead s1 1 (now (sFar p)) p (lane31 p) false path (loc + e.2) 8) = true ∧
      (∃ o ∈ p.ords, o.lane = 31) ∧ (p.ord 31).half = e.1) := by
  decide +kernel

/-- An import table of function 0 with two entries: 4096 bytes of device 9, and of device 10. -/
def sImport (p : Pend) : State :=
  let s := (sPend p).setFunc 0 (fun f => f.setReg 0x130 0x2000000019000)
  { s with mem := mwrite s.mem 0x19000 ([9, 10].flatMap (fun d => toLE 4 (2 ^ 31 + d) ++ toLE 4 0 ++ toLE 8 4096)) }
/-- Whether a function's import table gives it n bytes at an offset of a device's window. -/
def imports (s : State) (f dev loc n : Nat) : Bool :=
  let reg := (s.func f).reg 0x130
  let ok (bs : List Byte) : Bool :=
    let w := leNat (bs.take 4)
    bit w 31 && bits w 19 0 == dev && bits w 30 27 == 0 && ((bs.drop 4).take 4).all (· == 0) && leNat ((bs.drop 8).take 8) < 2 ^ 40
  match s.peerEntry f (bits reg 47 5 * 32) 16 ok (bits reg 63 48) 0 with
  | (t, some bs) => !decide (leNat ((bs.drop 8).take 8) < loc + n) && decide (t.strands = s.strands ∧ t.inflight = s.inflight)
  | (_, none) => false
theorem peerPlace_away {s : State} {f dev loc n : Nat} (r : Need) (atomic : Bool) (h : imports s f dev loc n = true) (hd : dev ≠ Config.deviceId.toNat) :
    ∃ s1, s.peerPlace f dev loc n r atomic = (s1, .peer dev loc) ∧ s1.strands = s.strands ∧ s1.inflight = s.inflight := by
  simp only [imports] at h
  simp only [State.peerPlace]
  split at h
  · rename_i t bs hb
    simp only [Bool.and_eq_true, decide_eq_true_eq] at h
    rw [hb]
    exact ⟨t, by simp_all, h.2⟩
  · cases h
theorem resolve_away {s : State} {st : Strand} {p : W64} {dev loc n : Nat} (k : Nat) (off : Int) (r : Need) (atomic : Bool)
    (hq : locate st.ctx p off atomic = .inr (BitVec.ofNat 64 (2 ^ 62 + dev * 2 ^ 40 + loc))) (h : imports s (s.fnOf st) dev loc n = true)
    (hb : loc < 2 ^ 40 ∧ dev < 2 ^ 20 ∧ loc % n = 0) (hd : dev ≠ Config.deviceId.toNat) :
    ∃ s1, s.resolve st k p off n r atomic = (s1, BitVec.ofNat 64 (2 ^ 62 + dev * 2 ^ 40 + loc), .peer dev loc) ∧ s1.strands = s.strands ∧
      s1.inflight = s.inflight := by
  obtain ⟨s1, h1, h2⟩ := peerPlace_away r atomic h hd
  obtain ⟨hl, hv, ha⟩ := hb
  have e : (BitVec.ofNat 64 (2 ^ 62 + dev * 2 ^ 40 + loc)).toNat = 2 ^ 62 + dev * 2 ^ 40 + loc := by simp; omega
  have b : bits (2 ^ 62 + dev * 2 ^ 40 + loc) 63 60 = 4 := by simp only [bits]; omega
  have d : bits (2 ^ 62 + dev * 2 ^ 40 + loc) 59 40 = dev := by simp only [bits]; omega
  have l : (2 ^ 62 + dev * 2 ^ 40 + loc) % 2 ^ spaceWidth 4 = loc := by
    rw [show spaceWidth 4 = 40 from rfl]; omega
  exact ⟨s1, by simp only [State.resolve, hq, e, b, d, l, ha, h1]; simp, h2⟩
/-- An access to offset 16 of device d. -/
def distant (op d : Nat) : Pend := access op (if op < 0x8C then 0 else 3) (BitVec.ofNat 64 (2 ^ 62 + d * 2 ^ 40 + 16))
/-- Everything that access needs but that the device is another. -/
abbrev leavesFor (op : Nat) : Prop :=
  ∀ d ∈ [9, 10], isAccess (sImport (distant op d)) (distant op d) (lane31 (distant op d)) = true ∧
    imports (sImport (distant op d)) 0 d 16 (accSize op (distant op d).f) = true ∧ 16 % accSize op (distant op d).f = 0 ∧
    (sImport (distant op d)).fnOf (now (sImport (distant op d))) = 0 ∧
    (locate (now (sImport (distant op d))).ctx (lane31 (distant op d)).ptr (accOff op (distant op d).f + (distant op d).limbOff 31)
      (isAtom op || isRed op)).getRight? = some (BitVec.ofNat 64 (2 ^ 62 + d * 2 ^ 40 + 16))
theorem reaches_away (op : Nat) (h : leavesFor op) :
    ∃ d s1 q, Reaches (sImport (distant op d)) s1 1 (now (sImport (distant op d))) (distant op d) (lane31 (distant op d)) q (.peer d 16) ∧ s1.inflight = [] := by
  have hd : ∃ d ∈ [9, 10], d ≠ Config.deviceId.toNat := by
    by_cases h9 : 9 = Config.deviceId.toNat
    · exact ⟨10, by simp, by omega⟩
    · exact ⟨9, by simp, h9⟩
  obtain ⟨d, hm, hd⟩ := hd
  obtain ⟨a, b, c, f, e⟩ := h d hm
  have hv : d < 2 ^ 20 := by
    simp only [List.mem_cons, List.not_mem_nil, or_false] at hm
    omega
  obtain ⟨s1, r, hs, hi⟩ := resolve_away (p := (lane31 (distant op d)).ptr) ((distant op d).addrLane 31) _
    { accNeed op with who := some (2 * (distant op d).id) } (isAtom op || isRed op)
    (Sum.getRight?_eq_some_iff.mp e) (f.symm ▸ b) ⟨by omega, hv, c⟩ hd
  exact ⟨d, s1, _, access_reaches a r (by
    have := pending (of_decide_eq_true a).1
    simpa [State.strand, hs] using this.strand), hi⟩
theorem witness_peers : ∀ op ∈ [0x84, 0x86, 0x8D, 0x90, 0x97, 0x8A, 0x8F, 0x9A], ∃ d s1 q,
    Reaches (sImport (distant op d)) s1 1 (now (sImport (distant op d))) (distant op d) (lane31 (distant op d)) q (.peer d 16) ∧ s1.inflight = [] :=
  fun op h => reaches_away op ((by decide +kernel : ∀ op ∈ [0x84, 0x86, 0x8D, 0x90, 0x97, 0x8A, 0x8F, 0x9A], leavesFor op) op h)

theorem witness_StoreLeaves :
    (∀ op ∈ [0x87, 0x88, 0x89, 0x8A, 0x8B, 0x8E, 0x8F, 0x9A, 0x9B], let p := access op (if op < 0x9A then 1 else 2) 0x10080
      isReached (sPend p) p (lane31 p) (takesAt p fun s1 _ _ => s1.inflight.isEmpty) = true ∧ (sPend p).orderOk (now (sPend p)) p (lane31 p) = true) ∧
    -- sixteen bytes of the host
    (let p := access 0x8B 0 0x40000000; isReached (sFar p) p (lane31 p) (takesAt p fun _ loc path => halved path loc 16) = true ∧
      (sFar p).orderOk (now (sFar p)) p (lane31 p) = true) := by
  decide +kernel

/-- A stop of an access. -/
def stopsAt (_ : State) (_ : W64) : Rs → Bool
  | .stop _ => true
  | _ => false
theorem witness_AccessFaults : ∀ op ∈ [0x84, 0x89, 0x8C, 0x90, 0x9A], let p := access op 2 0x10081
    isReached (sPend p) p (lane31 p) stopsAt = true ∧ (sPend p).orderOk (now (sPend p)) p (lane31 p) = true ∧ p.trailed = false := by
  decide +kernel

/-- `sL` with its warp bound to chains of 2 ^ n limbs, and with its group less the lanes of m. -/
def sBound (n : BitVec 3) : State := turn sL (fun st => { st with lcr := ⟨n, 0, 0, List.replicate 16 0⟩ })
def without (m : Word) (s : State) : State := turn s (fun st => { st with run := st.run.map (fun r => { r with mask := r.mask &&& ~~~m }) })
def isChains (st : Strand) (n : Nat) : Bool :=
  decide ((1 ≤ st.lcr.log2n.toNat ∧ st.lcr.log2n.toNat ≤ 5) ∧ n = 2 ^ st.lcr.log2n.toNat ∧ st.lcr.spill.length = 16)
theorem chains {st : Strand} {n : Nat} (e : isChains st n = true) : Chains st n :=
  let ⟨size, lanes, spill⟩ := of_decide_eq_true e
  ⟨size, lanes, spill⟩
theorem bound {st : Strand} {n : Nat} (e : (isChains st n && (List.range 32).all (fun k => inMask st.group k)) = true) : Bound st n := by
  rw [Bool.and_eq_true] at e
  exact ⟨chains e.1, fun _ _ _ j hj _ => List.all_eq_true.mp e.2 j (List.mem_range.mpr hj)⟩

theorem witness_LimbResults : (Bound (now (sBound 1)) 2 ∧ Bound (now (sBound 5)) 32) ∧
    Readies (forms (sBound 5) [0x72, 0x73, 0x74, 0x75, 0x76, 0x77, 0x79] ⟨0, 4, 6, 0, 0⟩ ++ forms (sBound 1) [0x72, 0x73, 0x74, 0x79] ⟨0, 4, 6, 0, 2⟩) ∧
    (∀ c < 16, chain (fun k => (now (sBound 1)).src k 6) 2 c = 0) :=
  ⟨⟨bound (by decide +kernel), bound (by decide +kernel)⟩, readies (by decide +kernel), by decide +kernel⟩

theorem witness_LimbMoves : Bound (now (sBound 2)) 4 ∧ Readies ([(0x78, ⟨0, 4, 6, 5, 0⟩), (0x7B, ⟨0, 6, 6, 5, 9⟩), (0x7A, ⟨0, 4, 0, 0, 1⟩), (0x7A, ⟨0, 0, 4, 0, 2⟩),
        (0x7E, ⟨0, 0, 4, 0, 1⟩), (0x7E, ⟨0, 4, 0, 0, 0⟩), (0x71, ⟨0, 0, 0, 0, 0⟩)].map (fun e => (sBound 2, rrr e.1 e.2)) ++ forms sL [0x70] ⟨0, 0, 0, 0, 5⟩) ∧
    ((now (sBound 2)).ctx = .L ∧ (sL.hdrOf (now sL)).limbs = true ∧ (now sL).group = 0xFFFFFFFF ∧ ∀ k < 32, ((now sL).lane k).st ≠ .away) :=
  ⟨bound (by decide +kernel), readies (by decide +kernel), by decide +kernel⟩

/-- A bound warp whose chains hold values that carry, that borrow, or that have no negative. -/
def sCarry (a b : Word) : State := turn (sBound 1) (fun st => { st with vregs := (st.vregs.set 6 (.u a)).set 5 (.u b) })
theorem witness_LimbTraps :
    Readies (forms sL [0x72, 0x73, 0x74, 0x75, 0x76, 0x77, 0x78, 0x79, 0x7B] ⟨0, 4, 6, 0, 0⟩ ++ forms sL [0x7A] ⟨0, 4, 0, 0, 0⟩ ++ forms sL [0x7C, 0x7D] ⟨0, 4, 6, 63, 7⟩ ++
      forms sL [0x7E] ⟨0, 0, 4, 0, 1⟩ ++ forms (without 1 (sBound 1)) [0x72, 0x73, 0x74, 0x75, 0x76, 0x77, 0x78, 0x79, 0x7B] ⟨0, 4, 6, 0, 0⟩ ++
      forms (without 1 (sBound 1)) [0x7A] ⟨0, 4, 0, 0, 0⟩ ++
      forms (without 1 (sBound 1)) [0x7C, 0x7D] ⟨0, 4, 6, 63, 7⟩ ++ forms (without 1 (sBound 1)) [0x7E] ⟨0, 0, 4, 0, 1⟩ ++
      [(sCarry 0xFFFFFFFF 1, rrr 0x72 ⟨0, 4, 6, 5, 2⟩), (sCarry 0 1, rrr 0x73 ⟨0, 4, 6, 5, 2⟩), (sCarry 0xFFFFFFFF 2, rrr 0x79 ⟨0, 4, 6, 5, 2⟩),
        (without 1 sL, rrr 0x70 ⟨0, 0, 0, 0, 5⟩)] ++ forms (sBound 1) [0x74] ⟨0, 4, 6, 0, 2⟩) ∧
    ((now sL).lcr.log2n = 0 ∧ Chains (now (without 1 (sBound 1))) 2 ∧ ¬ performs (now (without 1 (sBound 1))).group 2 0 ∧
      inMask (now (without 1 (sBound 1))).group 1 = true) ∧
    (∀ h ∈ [rrr 0x7C ⟨0, 4, 6, 63, 7⟩, rrr 0x7D ⟨0, 4, 6, 63, 7⟩], ∀ w ∈ [false, true], let s := without 1 (sBound 1)
      (s.takeMisses { s.iss (now s) h with g := maskOf (fun k => k % 2 == 0 && decide (performs (now s).group 2 (k / 2))) } w).isSome = true) ∧
    (Bound (now (sCarry 0xFFFFFFFF 1)) 2 ∧ 2 ^ 64 ≤ chain (fun j => (now (sCarry 0xFFFFFFFF 1)).src j 6) 2 0 + chain (fun j => (now (sCarry 0xFFFFFFFF 1)).src j 5) 2 0 ∧
      chain (fun j => (now (sCarry 0 1)).src j 6) 2 0 < chain (fun j => (now (sCarry 0 1)).src j 5) 2 0) ∧
    ((now (without 1 sL)).group ≠ 0xFFFFFFFF) :=
  ⟨readies (by decide +kernel), ⟨by decide +kernel, chains (by decide +kernel), by decide +kernel, by decide +kernel⟩, by decide +kernel,
    ⟨bound (by decide +kernel), by decide +kernel⟩, by decide +kernel⟩

/-- Two lanes of a chain that wait for the memory at p, of which the first has read v. -/
def limbs (op : Nat) (p : W64) (v : Option Nat) : Pend :=
  { pend op ⟨0, 50, 6, 0, 1⟩ (if op = 0x7C then 1 else 0) [⟨0, p, 5⟩, ⟨1, p, 6⟩] with
    ords := [{ lane := 0, wid := 4, must := [], carry := [], rel := 0, half := v }, { lane := 1, wid := 5, must := [], carry := [], rel := 0 }] }
/-- An access to the SRAM of a core in reach is placed there, whatever is in flight and whatever the other strands do. -/
theorem resolve_sram {s : State} {st : Strand} {p q : W64} {n : Nat} (k : Nat) (off : Int) (r : Need) (hq : locate st.ctx p off false = .inr q)
    (hs : bits q.toNat 63 60 = 1) (ha : q.toNat % 2 ^ spaceWidth 1 % n = 0) (ho : s.coreOpen (s.fnOf st) (16 * bits q.toNat 59 54 + bits q.toNat 53 50) = true) :
    s.resolve st k p off n r false = (s, q, .place (sramLoc (16 * bits q.toNat 59 54 + bits q.toNat 53 50) (q.toNat % 2 ^ spaceWidth 1))
      (if st.ctx == .S then .comb else .core) (s.fnOf st)) := by
  simp only [State.resolve, hq, hs, ha, ho]; simp

theorem witness_LimbMemoryIssue : (Bound (now (sBound 3)) 8 ∧ Readies (forms (sBound 3) [0x7C, 0x7D] ⟨0, 4, 6, 0, 7⟩) ∧
      ∀ w ∈ [false, true], ((sBound 3).takeMisses { (sBound 3).iss (now (sBound 3)) (rrr 0x7C ⟨0, 4, 6, 0, 7⟩) with
        g := maskOf (fun k => inMask (now (sBound 3)).group k && k % 8 == 0) } w).isSome = true) ∧
    (let s := turn sMisses (fun st => { st with lcr := ⟨3, 0, 0, List.replicate 16 0⟩ }); Bound (now s) 8 ∧ Readies (forms s [0x7C, 0x7D] ⟨0, 4, 6, 0, 7⟩) ∧
      (s.takeMisses { s.iss (now s) (rrr 0x7C ⟨0, 4, 6, 0, 7⟩) with g := maskOf (fun k => inMask (now s).group k && k % 8 == 0) } false).isNone = true) ∧
    -- a chain that stores to its core's SRAM
    (let p := limbs 0x7D 0x1000000000000100 none; let s := sPend p; isPending s p = true ∧
      (∀ c ∈ p.caps, s.orderOk (now s) { p with caps := p.caps.filter (fun c => c.lane / 2 != 0) } c = true) ∧ (s.die (dieOfUnit (s.unitOf (now s)))).misses = [] ∧
      ∃ (q : Cap → W64) (loc : Cap → Nat), (∀ t : State, t = { s with inflight := t.inflight, strands := t.strands } → ∀ c ∈ p.caps, t.resolve (now s) (p.addrLane c.lane) c.ptr
          (accOff p.op p.f + p.limbOff c.lane) 4 { w := true, who := some (2 * p.id) } false = (t, q c, .place (loc c) .core 0)) ∧
        ∀ c ∈ p.caps, s.homeHeld (loc c) = false) ∧
    -- the limbs of a chain that loads: the first, the last, and one that stops
    (∀ e ∈ [(limbs 0x7C 0x10080 none, 0), (limbs 0x7C 0x10080 (some 7), 1)], let c := e.1.caps.getD e.2 ⟨0, 0, 0⟩
      e.1.caps.find? (fun c => (e.1.ord c.lane).half.isNone) = some c ∧
      isReached (sPend e.1) e.1 c (takesAt e.1 fun s1 loc path => isRead s1 1 (now (sPend e.1)) e.1 c false path loc 4) = true ∧
      (∀ d ∈ e.1.caps, (sPend e.1).orderOk (now (sPend e.1)) { e.1 with caps := e.1.caps.filter (fun c => c.lane / 2 != 0) } d = true)) ∧
    isReached (sPend (limbs 0x7C 0x10081 none)) (limbs 0x7C 0x10081 none) ⟨0, 0x10081, 5⟩ stopsAt = true := by
  refine ⟨⟨bound (by decide +kernel), readies (by decide +kernel), by decide +kernel⟩, ⟨bound (by decide +kernel), readies (by decide +kernel), by decide +kernel⟩,
    ⟨by decide +kernel, by decide +kernel, by decide +kernel, fun c => c.ptr + BitVec.ofNat 64 (4 * c.lane), fun c => sramLoc 0 (0x100 + 4 * c.lane),
      fun t ht c hc => ?_, by decide +kernel⟩, by decide +kernel, by decide +kernel⟩
  have e : ∀ c ∈ (limbs 0x7D 0x1000000000000100 none).caps, let q := c.ptr + BitVec.ofNat 64 (4 * c.lane)
      (locate .L c.ptr (accOff 0x7D ⟨0, 50, 6, 0, 1⟩ + (limbs 0x7D 0x1000000000000100 none).limbOff c.lane) false).getRight? = some q ∧
      bits q.toNat 63 60 = 1 ∧ q.toNat % 2 ^ spaceWidth 1 = 0x100 + 4 * c.lane ∧ (0x100 + 4 * c.lane) % 4 = 0 ∧ 16 * bits q.toNat 59 54 + bits q.toNat 53 50 = 0 := by
    decide +kernel
  obtain ⟨a, b, d, f, g⟩ := e c hc
  let s := sPend (limbs 0x7D 0x1000000000000100 none)
  have hf : t.fnOf (now s) = 0 := by rw [ht]; exact (by decide +kernel : s.fnOf (now s) = 0)
  have ho : t.coreOpen 0 0 = true := by rw [ht]; exact (by decide +kernel : s.coreOpen 0 0 = true)
  rw [resolve_sram _ _ _ (Sum.getRight?_eq_some_iff.mp a) b (d ▸ f) (by rw [hf, g]; exact ho), hf, g, d]
  rfl

/-- `sL` with its warp's context changed. -/
def sCx (f : Cx → Cx) : State := sL.updCx 1 f
/-- A context `c` of `s` that its issuing strand belongs to. -/
def cxOf (s : State) : Cx := (s.cx (now s).cx).getD (Cx.at (placeHeader .L) 0 0 [] none)

/-- A write of four bytes, in flight or applied. -/
def wr (loc : Nat) (strong : Bool) : Wr :=
  { id := 7, strand := 1, lane := 0, cx := 1, fn := 0, path := .core, die := 0, loc := loc, op := .store, data := [1, 2, 3, 4], strong := strong, carry := []
    vis := [], all := false, cmd := none, wait := 0, pc := 0x10080, ptr := 0x11000 }
/-- `sL` whose lanes have a write of another thread in their histories that has not been applied. -/
def sHist : State := turn { sL with inflight := [{ wr 0x11000 false with strand := 9 }] }
  (fun st => st.mapLanes 0xFFFFFFFF (fun _ l => { l with ord := { l.ord with hist := [(7, .core)] } }))
def sStored : State := sPend (pend 0x89 ⟨0, 4, 6, 0, 7⟩ 0 [⟨0, 0x10080, 0⟩])

theorem witness_FenceResults : Readies (forms sL [0x9D] ⟨0, 0, 0, 1, 7⟩ ++ forms sStored [0x9D] ⟨0, 0, 0, 1, 7⟩ ++ forms sL [0x9E] ⟨0, 0, 5, 0, 0⟩ ++
      forms sHist [0x9E] ⟨0, 0, 5, 0, 0⟩) ∧
    (∀ k < 32, sL.workDone sL.cur k 1 sL.nextId = true) ∧
    (inMask (sStored.iss (now sStored) (rrr 0x9D ⟨0, 0, 0, 1, 7⟩)).g 0 = true ∧ sStored.workDone sStored.cur 0 1 sStored.nextId = false) ∧
    (let hist (s : State) := s.unapplied (fun id => (lanesOf (now s).group).any (fun k => ((now s).lane k).ord.hist.contains (id, Path.core)))
     hist sL = false ∧ hist sHist = true) ∧
    (now (turn sL (fun st => { st with stall := some .fence }))).stall = some .fence :=
  ⟨readies (by decide +kernel), by decide +kernel⟩

/-- `sL` bound to chains, with one lane's guard false. -/
def sHalf : State := turn (sBound 1) (fun st => st.mapLanes 1 (fun _ l => { l with preds := 1 }))
/-- The issue form of an instruction that writes the link register. -/
def linking (h : Hd) : Hd := { h with more := [54, 55] }

theorem witness_BranchResults : Readies ([(sL, brw 0xA8 ⟨0, 0x3FFFF, 7⟩), (sL, linking (brw 0xAA ⟨0, 1, 7⟩)), (sL, brlw 0xA9 ⟨0, 0x200000⟩),
        (sL, linking (brlw 0xAB ⟨0, 1⟩)), (sL, rrr 0xAE ⟨0, 0, 54, 0, 7⟩), (sL, linking (rrr 0xAC ⟨0, 0, 6, 0, 7⟩)), (sHalf, brw 0xA8 ⟨0, 2, 0⟩),
        (sHalf, linking (brw 0xAA ⟨0, 2, 0⟩)), (sHalf, linking (rrr 0xAC ⟨0, 0, 6, 0, 0⟩))] ++
      [sL, sReg 7 0x10000000, sReg 6 0x10001].flatMap (fun s => forms s [0xAD] ⟨0, 0, 6, 0, 7⟩)) ∧
    ((now sL).bound = false ∧ (∀ k < 32, (now sL).pair k 6 >>> 60 = 0 ∧ ((now sL).pair k 6).getLsbD 0 = false) ∧
      (now (sReg 7 0x10000000)).pair 0 6 >>> 60 ≠ 0 ∧ ((now (sReg 6 0x10001)).pair 0 6).getLsbD 0 = true) ∧
    ((now sHalf).bound = true ∧ inMask (sHalf.iss (now sHalf) (brw 0xA8 ⟨0, 2, 0⟩)).g 0 ≠ inMask (sHalf.iss (now sHalf) (brw 0xA8 ⟨0, 2, 0⟩)).g 31) :=
  ⟨readies (by decide +kernel), by decide +kernel⟩

theorem witness_SoftwareTraps : Readies (forms sL [0xB8] ⟨0, 63, 63, 0, 0⟩ ++ forms sL [0xF4] ⟨0, 4, 35, 0, 0⟩ ++ forms sD [0xF4] ⟨0, 4, 35, 0, 0⟩ ++
      forms sF [0xB8] ⟨0, 0, 1, 0, 0⟩) ∧ sL.strand sL.cur = some (now sL) :=
  ⟨readies (by decide +kernel), by decide +kernel⟩

/-- Everything `EndsAlone` asks, as one test. -/
def isAlone (s : State) : Bool :=
  let st := now s
  decide ((st.ctx = .L ∧ st.fg = none ∧ st.bound = false ∧ st.routine = .none ∧ st.trail = none) ∧ s.savedAway s.cur = false ∧
    (s.cx st.cx).all (fun c => decide (c.preempt = none)) = true ∧ (s.func (s.fnOf st)).replays.all (fun r => decide (r.strand ≠ s.cur)) = true ∧
    (List.range 32).all (fun k => decide ((st.lane k).flts = [] ∧ (st.lane k).act = none ∧
      (inMask st.group k = false → (st.lane k).st ∈ [LaneSt.ready, .exited, .never]))) = true)
theorem alone {s : State} (e : isAlone s = true) : EndsAlone s (now s) :=
  let ⟨warp, here, request, replays, lanes⟩ := of_decide_eq_true e
  { warp, here, request := fun x hx => by simpa [hx] using request
    replays := by simpa using replays, lanes := fun k hk => of_decide_eq_true (List.all_eq_true.mp lanes k (List.mem_range.mpr hk)) }

def sTrap : State := turn sL (fun st => st.mapLanes 0xFFFFFFFF (fun _ l => { l with intrap := true }))
/-- `sL` with n deferred entries, and a load to v4 that is not one yet. -/
def sTrails (n : Nat) : State := turn sL (fun st => { st with pends := (List.range n).map (fun k => { pend 0x84 ⟨0, BitVec.ofNat 6 (10 + k), 6, 0, 7⟩ 1 [⟨0, 0x10080, 0⟩] with
  id := 20 + k, trailed := true }) ++ [pend 0x84 ⟨0, 4, 6, 0, 7⟩ 1 [⟨0, 0x10080, 0⟩]] })
/-- Half of a warp whose rejoin mask 15 names the other half too. -/
def sJoin : State := turn (without 0xFFFF0000 sL) (fun st => { st with js := st.js.set 15 0xFFFFFFFF })

theorem witness_RunEndInstructions : Readies (forms sL [0xAF] ⟨0, 0, 0, 0, 7⟩ ++ forms sL [0xB0, 0xB1, 0xB2] ⟨0, 15, 0, 0, 0⟩ ++ forms sJoin [0xB2] ⟨0, 15, 0, 0, 0⟩ ++
      [0, 8].flatMap (fun n => forms (sTrails n) [0xB3] ⟨1, 4, 56, 56, 0⟩) ++ [(sL, { rrr 0xB4 ⟨0, 0, 0, 0, 0⟩ with more := List.range 56 })] ++
      forms sF [0xA2] ⟨0, 0, 0, 0, 0⟩ ++ forms sTrap [0xF5] ⟨1, 0, 0, 0, 0⟩ ++ forms sL [0xC9] ⟨1, 15, 6, 0, 8⟩) ∧
    ((now sL).bound = false ∧ (∀ k < 32, ((now sTrap).lane k).intrap = true) ∧ (sL.barOf (sL.iss (now sL) (rrr 0xC9 ⟨1, 15, 6, 0, 8⟩)) 15).isSome = true) ∧
    -- at the end of a run
    (∀ s ∈ [sL, sJoin, sTrails 0, sTrails 8], EndsAlone s (now s)) ∧
    ((now sJoin).pends = [] ∧ inMask ((now sJoin).js.getD 15 0) 31 = true ∧ inMask (now sJoin).group 31 = false ∧ ((now sJoin).lane 31).st = .ready ∧
      (now sL).js.getD 15 0 = 0) ∧
    (∀ e ∈ [(0, true), (8, false)], (∀ p ∈ (now (sTrails e.1)).pends, p.flts = [] ∧ p.caps ≠ []) ∧
      decide (((now (sTrails e.1)).pends.filter (fun p => p.trailed || trailed ⟨1, 4, 56, 56, 0⟩ p)).length ≤ 8) = e.2) :=
  ⟨readies (by decide +kernel), by decide +kernel,
    fun s h => alone ((by decide +kernel : ∀ s ∈ [sL, sJoin, sTrails 0, sTrails 8], isAlone s = true) s h), by decide +kernel⟩

theorem witness_ExitLeaves : Readies (forms sL [0xAF] ⟨0, 0, 0, 0, 7⟩) ∧ EndsAlone sL (now sL) ∧ (now sL).pends = [] ∧
    (∀ k < 32, inMask (sL.iss (now sL) (rrr 0xAF ⟨0, 0, 0, 0, 7⟩)).g k = true) :=
  ⟨readies (by decide +kernel), alone (by decide +kernel), by decide +kernel⟩

/-- A lead thread whose workgroup has one warp, and the warp's own view with a pushed entry. -/
def sPush : State := { sD with strands := tset sD.strands 2 (Strand.at .L 1 0x10080 32) }.updCx 1 (fun c => { c with strands := [1, 2] })
/-- The same with the reserve of its queue in use, and with the shared entries in use too. -/
def sShared (n : Nat) : State := sPush.updCx 1 (fun c => { c with waggle := List.replicate (32 + n) 0, waggleOrd := List.replicate (32 + n) Ord.empty, wqShared := n })
def sPop : State := sCx (fun c => { c with lead := some 2, waggle := [7] })
/-- The same with nothing to pop, and with its lead thread at work. -/
def sEmpty : State := sPop.updCx 1 (fun c => { c with waggle := [] })
def sLed : State := { sEmpty with strands := tset sEmpty.strands 2 (Strand.at .D 0 0x10080 1) }

theorem witness_WaggleResults : Readies ([sPush, sShared 0, sShared 224, sD].flatMap (fun s => forms s [0xB6] ⟨0, 4, 0, 0, 0⟩) ++
      [sPop, sEmpty, sLed, sL].flatMap (fun s => forms s [0xB7] ⟨0, 4, 0, 0, 0⟩)) ∧
    (sPush.cx (now sPush).cx = some (cxOf sPush) ∧ (cxOf sPush).waggle.length - (cxOf sPush).wqShared < 32 ∧ sPush.liveWarps (cxOf sPush) ≠ [] ∧
      sD.liveWarps (cxOf sD) = []) ∧
    (∀ n ∈ [0, 224], let s := sShared n; let lead := s.cxs.filter (fun e => e.2.core == (cxOf s).core && e.2.resident && e.2.lead.isSome)
      (cxOf s).waggle.length - (cxOf s).wqShared = 32 ∧ s.queuesBehind s.cur .waggle (fun t => s.homeUnit t == (cxOf s).core) = false ∧
      (lead.map (fun e => e.2.wqShared)).sum + 32 * lead.length = 32 + n) ∧
    ((cxOf sPop).lead.isSome = true ∧ (cxOf sPop).waggle[(now sPop).popped - (cxOf sPop).freed]? = some 7 ∧ (cxOf sL).lead = none ∧
      (∀ s ∈ [sEmpty, sLed], (cxOf s).lead.isSome = true ∧ (cxOf s).waggle[(now s).popped - (cxOf s).freed]? = none) ∧ sEmpty.leadGone (cxOf sEmpty) = true ∧
      sLed.leadGone (cxOf sLed) = false) :=
  ⟨readies (by decide +kernel), by decide +kernel⟩

def sStall (k : Stall) : State := turn sL (fun st => { st with stall := some k, places := [(k, 5)] })
/-- Two warps of one core that stall for their workgroup's own commands, and one that has been passed over 64 times. -/
def sOwn2 : State := { sStall .cmds with strands := tset (sStall .cmds).strands 2 (now (sStall .cmds)) }
def sPassed : State := turn sL (fun st => { st with passed := 64 })

theorem witness_StallGrants : (∀ k ∈ [Stall.block, .sfu, .miss, .engine, .cmds, .homeRec, .holder, .matrix, .waggle],
      (now (sStall k)).stall = some k ∧ (sStall k).stoppedForSave (now (sStall k)) = false ∧ (sStall k).strands.length = 1) ∧
    (sL.homeUnit (now sL) = 0 ∧ sL.unitOf (now sL) = 0 ∧ dieOfUnit 0 = 0 ∧ (now sL).cx = 1) ∧
    (sOwn2.strands.Pairwise (fun a b => a.1 < b.1) ∧ sOwn2.strands.all (fun e => decide (e.2.stall = some .cmds)) = true) ∧
    sS.insts.any (fun e => e.2.cx == (now sS).cx && e.2.modeChan == 0) = true ∧
    (∀ e ∈ [(sL, 0), (sPassed, 64)], e.1.canIssue 1 (now e.1) = true ∧
      (e.1.readies.filter (fun e => sL.portOf e.2 == 0)).map (fun e => (e.1, e.2.passed, e.2.fg.isNone)) = [(1, e.2, true)]) := by
  decide +kernel

/-- A warp one of whose lanes holds a fault while the others have exited. -/
def fault : FaultRec := { code := 6, pc := 0x10080, resume := 0x10084 }
def sFault (trap : Bool) : State := (turn (sCx (fun c => { c with hdr := { c.hdr with trap := trap } })) (fun st =>
  ({ st with run := none }.mapLanes 0xFFFFFFFF (fun k l => if k = 31 then { l with st := .fault, flts := [fault] } else { l with st := .exited }))))

theorem witness_FaultDelivered : ∀ t ∈ [true, false], let s := sFault t
    s.strand 1 = some (now s) ∧ s.cx (now s).cx = some (cxOf s) ∧ (now s).fg = none ∧ (now s).lanes.length = 32 ∧ (now s).ctx = .L ∧
    (now s).vregs.length = 56 ∧ (now s).sregs.length = 56 ∧ s.deliverable 1 (now s) = true ∧ ((now s).lane 31).st = .fault ∧
    ((now s).lane 31).flts = [fault] ∧ (∀ j < 31, ((now s).lane j).st = .exited) ∧ (cxOf s).routineTakes (now s) ((now s).lane 31) fault = t := by
  decide +kernel

/-- `sL`, or half of its warp, with barrier 15 of its workgroup as given. -/
def bar (threads : Nat) : Bar := { valid := true, threads := threads }
def withBar (b : Bar) (s : State) : State := s.updCx 1 (fun c => { c with bars := c.bars.set 15 b })
def sBar (b : Bar) : State := withBar b sL
/-- A barrier whose last phase has completed, or has completed with an error; one with its count in error, one with a command outstanding. -/
def passed (err : Nat) : State := withBar { bar 64 with phase := true, lerr := err } (without 0xFFFF0000 sL)

theorem witness_BarrierResults : Readies (forms sL [0xC6] ⟨0, 15, 6, 5, 0⟩ ++ forms (sBar (bar 64)) [0xC7] ⟨0, 15, 0, 0, 0⟩ ++ forms (sBar (bar 32)) [0xC7] ⟨0, 15, 0, 0, 0⟩ ++
      forms (sBar (bar 64)) [0xC8] ⟨0, 15, 6, 0, 0⟩ ++ forms (sBar (bar 64)) [0xCA] ⟨0, 15, 6, 5, 0⟩ ++ forms sL [0xCB] ⟨0, 15, 0, 0, 0⟩ ++
      [sBar (bar 64), passed 0, passed 1].flatMap (fun s => forms s [0xC9] ⟨1, 15, 6, 0, 8⟩)) ∧
    (sL.cx (now sL).cx = some (cxOf sL) ∧ 15 < (cxOf sL).hdr.barriers ∧ ((cxOf sL).bars.getD 15 {}).valid = false ∧ ((now sL).src 0 6).toNat % 4096 ≤ 2048) ∧
    ((cxOf (sBar (bar 64))).bars.getD 15 {} = bar 64 ∧ 0 + 32 < (bar 64).threads ∧ (bar 64).valid = true ∧ (bar 64).cnterr = false ∧ (bar 64).arrived ≠ (bar 64).threads ∧
      (cxOf (sBar (bar 32))).bars.getD 15 {} = bar 32 ∧ 0 + 32 = (bar 32).threads ∧ (bar 32).pending = 0) ∧
    (∀ s ∈ [sBar (bar 64), passed 0, passed 1], EndsAlone s (now s)) ∧
    (∀ s ∈ [sBar (bar 64), passed 0, passed 1], let b := (cxOf s).bars.getD 15 {}
      s.cur ∈ (cxOf s).strands ∧ (now s).pends = [] ∧ b.valid = true ∧ b.cnterr = false ∧ (b.phase != ((now s).src 0 6).getLsbD 0) = b.phase) ∧
    (inMask (now (passed 1)).group 31 = false ∧ ((now (passed 1)).lane 31).st = .ready) :=
  ⟨readies (by decide +kernel), by decide +kernel, by decide +kernel,
    fun s h => alone ((by decide +kernel : ∀ s ∈ [sBar (bar 64), passed 0, passed 1], isAlone s = true) s h), by decide +kernel⟩

/-- Half of `sL`'s warp with registers 5 and 6 as given, beside barrier 15. -/
def sWrong (b : Bar) (v : Word) : State := withBar b (turn (without 0xFFFF0000 sL) (fun st => { st with vregs := st.vregs.set 6 (.u v) }))
theorem witness_BarrierMisuse : Readies (forms sL [0xC7, 0xCB] ⟨0, 16, 0, 0, 0⟩ ++ forms sL [0xC6, 0xCA] ⟨0, 16, 6, 5, 0⟩ ++ forms sL [0xC8] ⟨0, 16, 6, 0, 0⟩ ++
      forms sL [0xC9] ⟨1, 16, 6, 0, 0⟩ ++
      -- a VALID barrier with a command, THREADS above 2048
      [sBar { bar 64 with out := 1 }, sWrong { bar 64 with valid := false } 2049].flatMap (fun s => forms s [0xC6] ⟨0, 15, 6, 5, 0⟩) ++
      -- not VALID, CNTERR, past THREADS, PENDING out of its range
      [sBar { bar 64 with valid := false }, sBar { bar 64 with cnterr := true }].flatMap (fun s => forms s [0xC8] ⟨0, 15, 6, 0, 0⟩ ++ forms s [0xCA] ⟨0, 15, 6, 5, 0⟩) ++
      [sBar { bar 64 with valid := false }, sBar { bar 64 with cnterr := true }, sBar (bar 31)].flatMap (fun s => forms s [0xC7] ⟨0, 15, 0, 0, 0⟩) ++
      forms (sWrong { bar 64 with pending := 1 } 0x7FFFFFFF) [0xC8] ⟨0, 15, 6, 0, 0⟩ ++
      [sWrong { bar 64 with valid := false } 0, sWrong { bar 64 with cnterr := true } 0].flatMap (fun s => forms s [0xC9] ⟨1, 15, 6, 0, 0⟩)) ∧
    (sL.cx (now sL).cx = some (cxOf sL) ∧ (cxOf sL).hdr.barriers = 16 ∧ ((now (sWrong (bar 64) 2049)).src 0 6).toNat % 4096 = 2049 ∧
      ((now (sWrong (bar 64) 0x7FFFFFFF)).src 0 6).toNat % 2 ^ 31 = 2 ^ 31 - 1 ∧ (bar 31).threads < (bar 31).arrived + (lanesOf (now sL).group).length) ∧
    (∀ s ∈ [sWrong { bar 64 with valid := false } 0, sWrong { bar 64 with cnterr := true } 0], EndsAlone s (now s)) ∧
    (∀ s ∈ [sWrong { bar 64 with valid := false } 0, sWrong { bar 64 with cnterr := true } 0], s.cur ∈ (cxOf s).strands ∧ (now s).pends = [] ∧
      inMask (now s).group 31 = false ∧ ((now s).lane 31).st = .ready) :=
  ⟨readies (by decide +kernel), by decide +kernel,
    fun s h => alone ((by decide +kernel : ∀ s ∈ [sWrong { bar 64 with valid := false } 0, sWrong { bar 64 with cnterr := true } 0], isAlone s = true) s h),
    by decide +kernel⟩

/-- `sL` with registers as given. -/
def sRegs (rs : List (Nat × Word)) : State := turn sL (fun st => { st with vregs := rs.foldl (fun v r => v.set r.1 (.u r.2)) st.vregs })
/-- Operands of a copy: a destination or block in v4 and v5, a source in v6 and v7, a length in v8. -/
def sCopy : State := sRegs [(4, 0x20000), (6, 0x10000), (8, 64)]
def sCopyBad (r : Nat) : State := sRegs ([(4, 0x20000), (6, 0x10000), (8, 64)] ++ [(r, 0x60000000)])
/-- A block that is not aligned, and words that name barrier 16. -/
def sCopyOdd : State := sRegs [(4, 0x20020), (6, 0x10010), (8, 16 * 2 ^ 23 + 64)]
def cmd (op : Nat) (a d : W64) (n : Nat) (block : List Byte) : Cmd :=
  { id := 7, op := op, cx := 1, fn := 0, strand := 1, lane := 0, nb := true, qs := false, mode := false, bar := 0, opd := d, opa := a, word := 0
    nominal := n, landed := 0, started := true, checked := false, cancel := false, block := block, ord := Ord.empty, node := none, wids := [] }
def linear : Cmd := cmd 0xC0 0x10000 0x20000 64 []
/-- The same with as many commands queued, its workgroup's or another's. -/
def sQueues (n cx : Nat) : State := sCopy.setDie 0 (fun d => { d with queue := List.replicate n { linear with cx := cx } })

theorem witness_CopyIssue : Readies (forms sCopy [0xC0] ⟨0, 4, 6, 8, 0⟩ ++ forms sCopy [0xC1, 0xC2, 0xC3] ⟨0, 4, 6, 0, 0⟩ ++ forms sL [0xC0] ⟨0, 4, 6, 8, 0⟩ ++
      [sCopyBad 5, sCopyBad 7].flatMap (fun s => forms s [0xC0] ⟨0, 4, 6, 8, 0⟩) ++ forms (sCopyBad 5) [0xC1, 0xC2, 0xC3] ⟨0, 4, 6, 0, 0⟩ ++
      forms sCopyOdd [0xC0] ⟨0, 4, 6, 8, 0⟩ ++ forms sCopyOdd [0xC1, 0xC2, 0xC3] ⟨0, 4, 6, 0, 0⟩ ++
      [sQueues 225 1, sQueues 993 2].flatMap (fun s => forms s [0xC0] ⟨0, 4, 6, 8, 0⟩)) ∧
    (sCopy.cx (now sCopy).cx = some (cxOf sCopy) ∧ (∀ k < 32, ((now sCopy).src k 8).toNat = 64 ∧ reachable ((now sCopy).pair k 6) 64 = true ∧
      reachable ((now sCopy).pair k 4) 64 = true ∧ (now sCopy).pair k 4 ≠ 0 ∧ ((now sCopy).pair k 4).toNat % 64 = 0 ∧
      ((now sCopy).src k 6).toNat % 512 < (cxOf sCopy).hdr.barriers) ∧ (now sCopy).places = []) ∧
    ((sCopy.cmdsOf (now sCopy).cx).length + 32 ≤ 256 ∧ (sCopy.die (dieOfUnit (sCopy.homeUnit (now sCopy)))).waiting.length + 32 ≤ 1024 ∧
      256 < ((sQueues 225 1).cmdsOf 1).length + 32 ∧ ((sQueues 993 2).cmdsOf 1).length = 0 ∧ 1024 < ((sQueues 993 2).die 0).waiting.length + 32) ∧
    (((now sL).src 0 8).toNat % 2 ^ 23 = 0 ∧ reachable ((now (sCopyBad 7)).pair 0 6) 64 = false ∧ reachable ((now (sCopyBad 5)).pair 0 4) 64 = false ∧
      ((now sCopyOdd).pair 0 4).toNat % 64 ≠ 0 ∧ (cxOf sCopyOdd).hdr.barriers ≤ ((now sCopyOdd).src 0 8).toNat / 2 ^ 23) :=
  ⟨readies (by decide +kernel), by decide +kernel⟩

/-- `sL` with an index in v6, one command queued on die 0, and engine 0 at work on it. -/
def sIdx (n : Word) : State := sRegs [(6, n)]
def lease (b : Bool) : Lease := ⟨0, some 7, 0, 100, 0, b⟩
def sQueue (c : Cmd) : State := (sIdx 512).setDie 0 (fun d => { d with queue := [c] })
def sEng (c : Cmd) : State := (sIdx 512).setDie 0 (fun d => { d with queue := [c], engines := [(0, lease true)] })
/-- A record of n bytes, 0 but for the fields given by their offsets. -/
def record (n : Nat) (fs : List (Nat × List Byte)) : List Byte := fs.foldl (fun b f => b.take f.1 ++ f.2 ++ b.drop (f.1 + f.2.length)) (List.replicate n 0)
/-- Commands that have not started: a linear one, and one whose block is in host memory not asked for yet. -/
def fresh : Cmd := { linear with started := false }
def distantBlock : Cmd := { cmd 0xC1 0 0x40000000 0 [] with started := false }
def sAway : State := { sQueue distantBlock with mem := mwrite sL.mem 0x200008 (toLE 8 0x20000000000003FB) }

theorem witness_CopyStatusAndCancel : Readies ([sL, sIdx 512, sIdx 513, sIdx 16].flatMap (fun s => forms s [0xC4] ⟨0, 4, 6, 0, 0⟩) ++
      [sL, sIdx 512, sIdx 513, sIdx 16, sQueue linear, sEng linear, sQueue fresh, sAway].flatMap (fun s => forms s [0xC5] ⟨0, 6, 0, 0, 0⟩)) ∧
    (∀ e ∈ [(sL, 0), (sIdx 512, 512), (sIdx 513, 513), (sIdx 16, 16)], ((now e.1).src 0 6).toNat % 1024 = e.2 ∧ e.1.cmdsOf 1 = []) ∧ (cxOf sL).hdr.barriers = 16 ∧
    (∀ e ∈ [(sQueue linear, linear), (sEng linear, linear), (sQueue fresh, fresh), (sAway, distantBlock)], e.1.cmdsOf (now e.1).cx = [(0, e.2)] ∧
      ((now e.1).src 0 6).toNat % 1024 = 512 ∧ e.2.nb = true) ∧
    (((sEng linear).die 0).engines.any (fun g => g.2.cmd == some 7) = true ∧ ((sQueue linear).die 0).engines = [] ∧
      ((sQueue fresh).described 0 fresh).2.isSome = true ∧ (sAway.described 0 distantBlock).2.isNone = true) :=
  ⟨readies (by decide +kernel), by decide +kernel⟩

def okOf {α : Type} : State × Eg α → Bool
  | (_, .ok _) => true
  | _ => false
def badOf {α : Type} : State × Eg α → Bool
  | (_, .bad _) => true
  | _ => false
def waitOf {α : Type} : State × Eg α → Bool
  | (_, .wait) => true
  | _ => false
/-- `s` with the leaves of its first two GiB in the die's TLB, the second's as given. -/
def warm (leaf : W64) (s : State) : State :=
  { s with mem := mwrite s.mem 0x200008 (toLE 8 leaf.toNat) }.setDie 0 (fun d => { d with
    tlb := [{ fn := 0, base := 0, size := 2 ^ 30, leaf := 0x3FB }, { fn := 0, base := 2 ^ 30, size := 2 ^ 30, leaf := leaf }] })
def sWork (c : Cmd) : State := warm 0 (sEng c)
/-- A tensor record of rank 1: 64 raw words at an address. -/
def tensor (a : Nat) : List Byte := record 64 [(0, [1]), (1, [3]), (8, toLE 8 a), (16, toLE 4 64)]
def strided : Cmd := cmd 0xC1 0 0x30000 256 (record 64 [(36, toLE 2 64)] ++ tensor 0x10000 ++ tensor 0x20000)
/-- A gather of two rows of 64 bytes by the indexes at 0x11000. -/
def gather : Cmd := cmd 0xC2 0 0x30000 128 (record 64 [(0, toLE 8 0x10000), (8, toLE 4 8), (12, toLE 4 64), (16, toLE 4 64), (20, toLE 4 2),
  (24, toLE 8 0x11000), (32, toLE 8 0x20000), (40, toLE 4 64)])
/-- A source in the second GiB, which `sWork` does not map. -/
def unmapped : Cmd := { linear with opa := 0x40000000 }
/-- A `cp.gcm` that decrypts 32 bytes to the second GiB, mapped with integrity or not, by a stream whose last IV was 5. -/
def gcm (ctr : Nat) : Cmd := cmd 0xC3 0 0x30000 32 (record 64 [(0, toLE 8 0x10000), (8, toLE 8 0x40030000), (16, toLE 4 32), (28, toLE 8 ctr), (40, toLE 8 0x10100)])
def sStream (v : Bool) (leaf : W64) (c : Cmd) : State :=
  warm leaf ((sEng c).setFunc 0 (fun f => { f with streams := f.streams.set 0 ⟨v, 0, 5, 0⟩ }))
def sGcm (c : Cmd) : State := sStream true 0x80000000000003FB c
/-- What the check of a `cp.gcm` gives. -/
def verdict (s : State) (c : Cmd) : Option (Option Nat) := (s.gcmCheck 0 c).2
/-- The same past its check, one that reads what is not mapped, and with all its bytes landed, to decrypt and to encrypt. -/
def checked : Cmd := { gcm 6 with checked := true }
def blind : Cmd := { checked with block := record 64 [(0, toLE 8 0x40000000), (8, toLE 8 0x10000), (16, toLE 4 32)] }
def landedAll : Cmd := { checked with landed := 32, marks := [1] }
def sealing : Cmd := { landedAll with mode := true }
/-- `landedAll` in a memory. -/
def sTagged (m : List Host.Cell) : State := { sGcm landedAll with mem := m }

/-- Whatever 16 bytes stand where the tag is read, the command reads them: its own tag, or another. -/
theorem tag_read (t : List Byte) (h : t.length = 16) : ((sTagged (mwrite [] 0x10100 t)).engRead 0 landedAll 0x10100 0 16).2 = .ok t := by
  have e : ∀ m, ((sTagged m).engRead 0 landedAll 0x10100 0 16).2 = .ok (mread m 0x10100 16) := by intro m; cbv
  rw [e, ← h, mread_mwrite]

/-- One command past the limits of a barrier's count, which a landing of one byte lowers. -/
def onBar : Cmd := { linear with nb := false, bar := 15 }
def sLanding : State := withBar (bar 64) (sEng onBar)

theorem witness_EngineSteps :
    (let s := sQueue linear; s.fnRuns 0 = true ∧ linear ∈ (s.die 0).queued 3 ∧ s.cmdHeld linear = false ∧ linear.fn = 0) ∧
    (∀ c ∈ [linear, fresh], tget ((sQueue c).die 0).engines 3 = none ∧ (sQueue c).engPick 0 3 = some 0 ∧ 0 < (sQueue c).mg.leaseCyc ∧
      (((sQueue c).die 0).queued 3).find? (fun q => q.fn == 0 && !(sQueue c).cmdHeld q) = some c) ∧
    -- a lease before its end, at it, and of a started `cp.gcm`
    (∀ c ∈ [linear, checked], tget ((sEng c).die 0).engines 0 = some (lease true) ∧ (sEng c).cmdAt 0 0 = some c ∧ (sEng c).clock < 0 + 100) ∧
    (let s := { sEng linear with clock := 100 }; tget (s.die 0).engines 0 = some (lease true) ∧ s.cmdAt 0 0 = some linear ∧ 0 + 100 ≤ s.clock) ∧
    (let s := { sEng linear with clock := 2 ^ 20 }; (s.die 0).halvings < s.cycle 0 / 2 ^ 20) ∧
    -- beats
    (∀ c ∈ [linear, strided, gather, unmapped, gcm 6, landedAll], (sWork c).cmdAt 0 0 = some c ∧ (sWork c).fnRuns c.fn = true ∧ (sWork c).cmdStops c = false ∧
      c.cancel = false ∧ c.started = true) ∧
    (okOf ((sWork linear).beatL 0 linear) = true ∧ okOf ((sWork strided).beatT 0 strided) = true ∧ okOf ((sWork gather).beatG 0 gather) = true ∧
      badOf ((sWork unmapped).beatL 0 unmapped) = true ∧ waitOf ((sEng linear).beatL 0 linear) = true ∧ (∀ i < 64, linear.overlapAt (linear.landed + i) = false)) ∧
    ((sGcm checked).cmdAt 0 0 = some checked ∧ (sGcm checked).fnRuns 0 = true ∧ (sGcm checked).cmdStops checked = false ∧ checked.landed ≠ checked.nominal ∧
      okOf ((sGcm checked).beatGcm 0 checked) = true ∧ badOf ((sStream true 0 blind).beatGcm 0 blind) = true) ∧
    -- what a landing counts against
    ((sLanding.die 0).queue = [onBar] ∧ onBar.node = none ∧ onBar.landed + 1 ≠ onBar.nominal ∧ sLanding.cx onBar.cx = some (cxOf sLanding) ∧
      (let b := (cxOf sLanding).bars.getD 15 {}; 15 < (cxOf sLanding).bars.length ∧ b.valid = true ∧ b.arrived ≠ b.threads ∧ (-(2 ^ 31) : Int) ≤ b.pending - 1)) ∧
    -- the check of a `cp.gcm`
    (∀ s ∈ [sGcm (gcm 6), sStream false 0 (gcm 6), sStream true 0x3FB (gcm 6)], s.cmdAt 0 0 = some (gcm 6) ∧ s.fnLive 0 = true ∧ s.gcmWaits 0 (gcm 6) = false) ∧
    (((sStream false 0 (gcm 6)).streamOf (gcm 6)).valid = false ∧ verdict (sStream true 0x3FB (gcm 6)) (gcm 6) = some (some 8)) ∧
    (∀ n ∈ [5, 6], (sGcm (gcm n)).cmdAt 0 0 = some (gcm n) ∧ (sGcm (gcm n)).gcmWaits 0 (gcm n) = false ∧ verdict (sGcm (gcm n)) (gcm n) = some none ∧
      ((sGcm (gcm n)).streamOf (gcm n)).last = 5 ∧ (GcmCmd.of (gcm n).block).ctr = n ∧ (GcmCmd.of (gcm n).block).stream < ((sGcm (gcm n)).func 0).streams.length ∧
      (GcmCmd.of (gcm n).block).ivid = ((sGcm (gcm n)).streamOf (gcm n)).sid.toNat) ∧
    -- its tag: written, and whatever its bytes are, read
    ((sGcm sealing).cmdAt 0 0 = some sealing ∧ sealing.nominal ≤ sealing.landed ∧ (sGcm sealing).fnLive 0 = true ∧
      okOf ((sGcm sealing).engAim 0 sealing 0x10100 0 (sealing.tagOf 0)) = true) ∧
    (landedAll.tagOf 0).length = 16 := by
  and_intros <;> decide +kernel
theorem witness_EngineSteps_tag (t : List Byte) (h : t.length = 16) :
    (sTagged (mwrite [] 0x10100 t)).cmdAt 0 0 = some landedAll ∧ (sTagged (mwrite [] 0x10100 t)).fnLive 0 = true ∧
    ((sTagged (mwrite [] 0x10100 t)).streamOf landedAll).key = 0 ∧
    ((sTagged (mwrite [] 0x10100 t)).engRead 0 landedAll 0x10100 0 16).2 = .ok t :=
  ⟨by cbv, by cbv, by cbv, tag_read t h⟩

def sGo : State := sCx (fun c => { c with hdr := { c.hdr with forage := 32 } })
theorem witness_ForageIssue : Readies (forms sGo [0xA0, 0xA1] ⟨1, 48, 6, 7, 7⟩) ∧
    ((now sGo).ctx = .L ∧ (sGo.hdrOf (now sGo)).forage ≠ 0 ∧ (sGo.strands.all (fun e => e.2.fg.isNone)) = true ∧
      sGo.strands.all (fun e => decide (e.1 < sGo.nextId)) = true ∧ sGo.nextId < 2 ^ 64) ∧
    ((sGo.iss (now sGo) (rrr 0xA0 ⟨1, 48, 6, 7, 7⟩)).g ≠ 0 ∧ sGo.recordsUsed (now sGo).cx + 32 ≤ (sGo.hdrOf (now sGo)).forage ∧
      sGo.queuesBehind sGo.cur .homeRec (fun t => t.cx == (now sGo).cx) = false ∧
      (let vas := ((sGo.iss (now sGo) (rrr 0xA0 ⟨1, 48, 6, 7, 7⟩)).pc.toNat + 4) :: (lanesOf (sGo.iss (now sGo) (rrr 0xA0 ⟨1, 48, 6, 7, 7⟩)).g).filterMap
          (fun k => sGo.accessVa (now sGo) k ((now sGo).pair k 6) 0 1 false);
        (sGo.takePages sGo.cur (sGo.unitOf (now sGo)) (sGo.fnOf (now sGo)) vas false).isSome = true)) :=
  ⟨readies (by decide +kernel), by decide +kernel⟩

/-- `sF` with its forager's place changed, and its home warp waiting for the departure it names. -/
def sTravel (f : Forager → Forager) : State :=
  (sF.updStrand 1 (fun g => { g with fg := g.fg.map f })).updStrand 2 (fun st =>
    { st with pends := [{ pend 0xA0 ⟨1, 0, 6, 0, 7⟩ 0 [⟨0, 0, 1⟩] with id := 2 }], lanes := st.lanes.set 0 (Lane.at 0x10080) })
def sGoing : State := sTravel (fun f => { f with unit := none, slot := none, dest := some 5 })
def sForeign : State := sGoing.setMg (fun m => { m with coreOwner := tset m.coreOwner 5 1 })
def sQueued : State := (sTravel (fun f => { f with unit := none, slot := none, queued := true })).setCore 5 (fun c => { c with arrivals := [1] })
/-- Every slot of core 5 taken, and its queue full of continuations that name no strand. -/
def sCrowd : State :=
  { sGoing.setCore 5 (fun c => { c with arrivals := List.replicate 32 99 }) with
    strands := sGoing.strands ++ (List.range 128).map (fun k => (100 + k, { now sF with fg := (now sF).fg.map (fun f => { f with unit := some 5, slot := some k }) })) }
def sHome : State := (sF.updStrand 1 (fun g => { g with
  fg := g.fg.map (fun f => { f with unit := none, slot := none }), lanes := g.lanes.map (fun l => { l with act := some .home }) }))
/-- The queued continuation that takes the next slot of a unit. -/
def taker (s : State) (u : Nat) : Option Nat :=
  (s.arrivalsOf u).find? (fun k => match s.strand k with | some g => s.slotFree u (s.fnOf g) | none => false)

theorem witness_ForagerSteps : (∀ s ∈ [sGoing, sForeign, sCrowd], (now s).fg.bind Forager.dest = some 5 ∧ s.strand 1 = some (now s) ∧ (now s).ctx = .F ∧
      (now s).lanes.length = 1 ∧ (s.departureOf 1).map (fun e => (e.1, e.2.1.op, e.2.2.lane)) = some (2, 0xA0, 0) ∧ s.unitReset 5 = false ∧
      5 ≠ s.homeUnit (now s) ∧ taker s 5 = none) ∧
    ((sGoing.strand 2).any (fun st => decide (st.ctx = .L ∧ st.lanes.length = 32 ∧ (st.lane 0).flts = [] ∧ st.pends.flatMap Pend.flts = [])) = true ∧
      sGoing.coreOpen (sGoing.fnOf (now sGoing)) 5 = true ∧ sGoing.slotFree 5 (sGoing.fnOf (now sGoing)) = true) ∧
    (sForeign.coreOpen (sForeign.fnOf (now sForeign)) 5 = false ∧ sCrowd.coreOpen (sCrowd.fnOf (now sCrowd)) 5 = true ∧
      sCrowd.slotFree 5 (sCrowd.fnOf (now sCrowd)) = false ∧ 32 ≤ (sCrowd.arrivalsOf 5).length) ∧
    (taker sQueued 5 = some 1 ∧ sQueued.strand 1 = some (now sQueued) ∧ (now sQueued).lanes.length = 1) ∧
    ((now sHome).fg.any (fun f => decide (f.home = 2 ∧ f.lane = 0 ∧ f.first + f.count ≤ 56 ∧ f.unit = none ∧ f.dest = none ∧ f.hop ≠ 0)) = true ∧
      (sHome.strand 2).any (fun st => decide (st.ctx = .L ∧ st.lanes.length = 32 ∧ st.vregs.length = 56 ∧ (st.lane 0).st = .away ∧ (st.lane 0).flts = [])) = true ∧
      ((now sHome).lane 0).act = some .home ∧ ((now sHome).lane 0).st = .ready ∧ (now sHome).runEnd = false) := by
  and_intros <;> decide +kernel

/-- A context that holds its core's matrix engine, with one range reserved and an operand of it in v8 to v11. -/
def range : Resv := ⟨0x11, 0, 0, 8192⟩
def sOperand : State :=
  sRegs [(9, 0x20000200), (10, 0x100), (20, 0x10100), (22, 0x10), (30, 0x11), (31, 8192), (32, 8192), (34, 0x11), (35, 255)]
def sHold : State := sOperand.setCore 0 (fun y => { y with holder := some 1, resv := [(0, range)] })
/-- A matrix command of `sHold`. -/
def mcmd (op : Nat) (tile : List Word) (base : W64) : MCmd :=
  { id := 7, strand := 1, lane := 0, op := op, d := 0, x := 0, cx := 1, aBase := base, aDesc := if op = 0xD2 then 0x100 else 0x10, bBase := 0
    bDesc := 0x100, aTile := tile, bTile := tile, shape := [], aFmt := 0x11, bFmt := 0x11, step := 0, status := none, ord := Ord.empty, wids := [] }
def mconvCmd : MCmd := { mcmd 0xD3 [] 0x11000 with aDesc := 0 }
def sHeld : State := sHold.setCore 0 (fun y => { y with holder := some 2 })
/-- `sHold` with an `mconv` queued that may read the range. -/
def sReads : State := sHold.setCore 0 (fun y => { y with mqueue := [mconvCmd] })
/-- The operand in v8 to v11. -/
def operand (s : State) : Option Operand := 
  match readOperand (s.iss (now s) (rrr 0xD2 ⟨0, 1, 8, 8, 0⟩)) (cxOf s) (s.core 0).resv 8 false with
  | .inr a => some a
  | _ => none

theorem witness_MatrixIssue : Readies (forms sHold [0xD0] ⟨0, 30, 31, 32, 1⟩ ++ forms sHold [0xD0] ⟨0, 30, 31, 32, 0⟩ ++ forms sOperand [0xD0] ⟨0, 30, 31, 32, 1⟩ ++
      forms sReads [0xD1] ⟨0, 0, 0, 0, 0⟩ ++ forms sHold [0xD1] ⟨0, 0, 0, 0, 0⟩ ++ forms sHold [0xD1] ⟨0, 0, 0, 0, 15⟩ ++
      [sHold, sHeld].flatMap (fun s => forms s [0xD2] ⟨0, 1, 8, 8, 0⟩ ++ forms s [0xD3] ⟨0, 1, 20, 8, 0⟩ ++ forms s [0xD4] ⟨0, 3, 0, 0, 0⟩ ++
        forms s [0xD5, 0xD6] ⟨0, 3, 20, 22, 0⟩) ++ forms sHold [0xD7] ⟨1, 0, 0, 0, 0⟩ ++ forms sHold [0xD8] ⟨0, 55, 0, 0, 0⟩) ∧
    -- a new range beside the held one, the same number again, and a first range
    ((∀ s ∈ [sHold, sOperand, sHeld], s.cx (now s).cx = some (cxOf s) ∧ (cxOf s).core = 0) ∧ (sOperand.core 0).holder = none ∧
      resvCause (sHold.core 0).resv (cxOf sHold).hdr.sram 1 0x11 8192 8192 = none ∧ resvCause (sHold.core 0).resv (cxOf sHold).hdr.sram 0 0x11 8192 8192 = some 1 ∧
      resvCause [] (cxOf sOperand).hdr.sram 1 0x11 8192 8192 = none ∧
      sOperand.queuesBehind sOperand.cur .holder (fun t => sOperand.homeUnit t == 0) = false) ∧
    -- the release of a record that a command may read, of one that none does, of none
    ((sReads.core 0).mqueue.any (sReads.readsRange (cxOf sReads) range) = true ∧ tget (sHold.core 0).resv 0 = some range ∧ tget (sHold.core 0).resv 15 = none ∧
      (sHold.core 0).mqueue = [] ∧
      sHold.queuesBehind sHold.cur .holder (fun t => t.cx == (now sHold).cx && ((now sHold).waits == some .holder || t.stall.isNone)) = false) ∧
    -- commands
    ((sHold.core 0).holder = some (now sHold).cx ∧ (sHeld.core 0).holder ≠ some (now sHeld).cx ∧
      sHold.queuesBehind sHold.cur .matrix (fun t => sHold.homeUnit t == 0) = false ∧ (operand sHold).any (fun a => (pairCause a a 1).isNone) = true ∧
      ((now sHold).pair 0 22).toNat < 2 ^ 33 ∧ ((now sHold).src 0 22).toNat % 16 = 0 ∧
      (let p := (now sHold).pair 0 20; spaceZeros (bits p.toNat 63 60) p.toNat = true ∧ bits p.toNat 63 60 ≤ 2 ∧ p.toNat % 16 = 0)) :=
  ⟨readies (by decide +kernel), by decide +kernel⟩

/-- `sHold` with a command at the front of its core's queue. -/
def sMat (m : MCmd) : State := warm 0 (sHold.setCore 0 (fun y => { y with mqueue := [m] }))
def tileCmd : MCmd := mcmd 0xD2 (List.replicate 256 0) 0
def doneCmd : MCmd := { tileCmd with step := tileCmd.steps }
def stopped : MCmd := { mcmd 0xD6 [] 0x20000 with status := some 8 }
def shaped (b : List Byte) : MCmd := { mconvCmd with shape := b, step := ({ mconvCmd with shape := b }).steps }
def convShape : List Byte := record 64 [(0, toLE 8 0x2000020000000000), (8, [1, 0, 1, 0, 64, 0, 1, 0, 1, 0, 1, 1, 1, 1, 1, 1])]
def sConv (b : List Byte) : State := let s := sMat mconvCmd; { s with mem := mwrite s.mem 0x11000 b }
/-- A lane of `sMat` parked by `mwait` on a command that has left. -/
def sWaits : State := turn (sMat tileCmd) (fun st => { st with lanes := st.lanes.set 0 { st.lane 0 with st := .mwait, waitCmds := [8] } })

theorem witness_MatrixSteps : (∀ m ∈ [tileCmd, doneCmd, stopped, mconvCmd, shaped convShape, mcmd 0xD4 [] 0, mcmd 0xD5 [] 0x20000],
      ((sMat m).core 0).mqueue = [m] ∧ (sMat m).cx 1 = some (cxOf sHold) ∧ (sMat m).matrixGo (cxOf sHold) m = true) ∧
    (tileCmd.step < tileCmd.steps ∧ (∀ i < 64, ∀ k < 2, ((sMat tileCmd).opVal 0 (cxOf sHold) tileCmd tileCmd.aTile 0 0x100 0x11 i k).isSome = true) ∧
      (let s := sMat tileCmd; ((s.lookOver tileCmd.ord 0 .matrix 0 (sramLoc 0 0) (cxOf sHold).hdr.sram).bind
        (fun s => s.lookOver tileCmd.ord 0 .matrix 0 (scaleLoc 0 0) 65536)).isSome = true) ∧
      ({ sMat (mcmd 0xD2 [] 0) with poison := [sramLoc 0 0 / 32] }.stepVals 0 (cxOf sHold) (mcmd 0xD2 [] 0) 0 0).isNone = true) ∧
    (okOf ((sConv convShape).mread 0 mconvCmd 0 0x11000 0 64) = true ∧ engPtrOk mconvCmd.aBase 64 = true ∧
      (shapeOk (cxOf sHold) ((sConv convShape).core 0).resv mconvCmd convShape).isSome = true ∧
      (shapeOk (cxOf sHold) ((sConv []).core 0).resv mconvCmd (List.replicate 64 0)).isNone = true) ∧
    ((shaped convShape).shape ≠ [] ∧ (sMat (mcmd 0xD4 [] 0)).applied = []) ∧
    (∀ op ∈ [0xD5, 0xD6], okOf ((sMat (mcmd op [] 0x20000)).mrows 0 0 (mcmd op [] 0x20000) 64 0) = true ∧
      badOf ((sMat (mcmd op [] 0x7000000000000000)).mrows 0 0 (mcmd op [] 0x7000000000000000) 64 0) = true) ∧
    (∀ i ∈ (cxOf sHold).strands, ((sMat tileCmd).strand i).all (fun st => st.lanes.all (fun l => decide (l.st ≠ .mwait))) = true) ∧
    (((now sWaits).lane 0).st = .mwait ∧ (cxOf sWaits).werr = 0 ∧
      ((now sWaits).lane 0).waitCmds.any (fun id => sWaits.cores.any (fun e => e.2.mqueue.any (fun m => m.id == id))) = false) := by
  and_intros <;> decide +kernel

/-- `sS` with scalar registers as given, and with its instance changed. -/
def sScal (rs : List (Nat × W64)) (f : Inst → Inst) : State :=
  (turn sS (fun st => { st with sregs := rs.foldl (fun v r => v.set r.1 r.2) st.sregs })).updInst 1 f
def sComb : State := sScal [(6, 0x10000), (8, 64)] id
/-- Pointers that name no place, another stack, and an odd place; a row field with bit 16; a stack 1 deep mode; an instance
with a command out; one whose first status is set. -/
def sNowhere : State := sScal [(6, 0x7000000000000000)] id
def sOther : State := sScal [(6, 0x5100000000000000)] id
def sOdd : State := sScal [(6, 0x10010), (8, 64)] id
def sHigh : State := sScal [(6, 0x10000)] id
def sMode : State := sScal [(6, 4)] id
def sOut : State := sScal [] (fun i => { i with outCmds := [7] })
def sStk : State := sScal [] (fun i => { i with stk := true, stkcode := 4, bank := 15, pch := 63 })
/-- `sS` where its instance's channel belongs to another slice. -/
def sClosed : State := sS.setMg (fun m => { m with chanOwner := [(0, 1)] })

theorem witness_CombIssue : Readies (forms sS [0xE0] ⟨0, 0, 6, 0, 0⟩ ++ forms sMode [0xE0] ⟨0, 0, 6, 0, 1⟩ ++ forms sClosed [0xE0] ⟨0, 0, 6, 0, 0⟩ ++
      [sComb, sNowhere, sOther, sOdd].flatMap (fun s => forms s [0xE1] ⟨0, 15, 6, 8, 0⟩ ++ forms s [0xEA] ⟨0, 0, 6, 0, 0⟩) ++
      [sS, sHigh].flatMap (fun s => forms s [0xE2, 0xE3] ⟨0, 4, 6, 0, 0⟩ ++ forms s [0xE7] ⟨0, 1, 6, 0, 0⟩) ++ forms sS [0xE4, 0xE5] ⟨0, 1, 6, 0, 0⟩ ++
      forms sS [0xE6] ⟨0, 1, 2, 0, 0⟩ ++ forms sS [0xE8] ⟨0, 15, 6, 0, 0⟩ ++ forms sS [0xE9] ⟨0, 4, 6, 8, 8⟩ ++ forms sS [0xEB] ⟨0, 0, 0, 0, 0⟩ ++
      [sS, sOut, sStk].flatMap (fun s => forms s [0xEC] ⟨0, 0, 0, 0, 0⟩ ++ forms s [0xED] ⟨0, 55, 0, 0, 0⟩)) ∧
    (∀ s ∈ [sS, sComb, sClosed, sNowhere, sOther, sOdd, sOut, sStk], s.instOf (now s) = tget s.insts 1 ∧ (tget s.insts 1).isSome = true ∧ (now s).ctx = .S) ∧
    (bits ((now sS).src 0 6).toNat 5 2 = sS.unitOf (now sS) % 16 ∧ bits ((now sMode).src 0 6).toNat 5 2 ≠ sS.unitOf (now sS) % 16 ∧
      sS.chanOpen (sS.fnOf (now sS)) 0 = true ∧ sClosed.chanOpen (sClosed.fnOf (now sClosed)) 0 = false) ∧
    (((now sComb).pair 0 6).toNat % 64 = 0 ∧ ((now sComb).src 0 8).toNat % 64 = 0 ∧ (locate .S ((now sComb).pair 0 6) 0 false).isRight = true ∧
      bits ((now sComb).pair 0 6).toNat 63 60 = 0 ∧ bits ((now sNowhere).pair 0 6).toNat 63 60 = 7 ∧ bits ((now sOther).pair 0 6).toNat 63 60 = 5 ∧
      (locate .S ((now sOther).pair 0 6) 0 false).isRight = true ∧ bits ((now sOther).pair 0 6).toNat 59 56 ≠ (sOther.unitOf (now sOther) - 1024) / 16 ∧
      ((now sOdd).pair 0 6).toNat % 64 ≠ 0) ∧
    ((∀ k < 16, (sComb.bank 0 k).buf.length < 64) ∧ sComb.chanReset 0 = false ∧
      sComb.queuesBehind sComb.cur .comb (fun t => (sComb.instOf t).any (fun j => j.modeChan == 0)) = false) ∧
    (((now sS).src 0 6).getLsbD 16 = false ∧ ((now sHigh).src 0 6).getLsbD 16 = true ∧ (tget sS.insts 1).map Inst.outCmds = some [] ∧
      (tget sS.insts 1).map Inst.stk = some false ∧ (tget sOut.insts 1).map Inst.outCmds = some [7] ∧ (tget sStk.insts 1).map Inst.stk = some true) :=
  ⟨readies (by decide +kernel), by decide +kernel⟩

def ccmd (op : Nat) (a : W64) : CCmd :=
  { id := 7, op := op, f := ⟨0, 1, 2, 0, 0⟩, inst := 1, fn := 0, slice := 0, die := 64, aVal := a, bVal := 0, eff := none, ord := Ord.empty, parity := false }
def reduce : CCmd := ccmd 0xE6 0
def storeRow : CCmd := ccmd 0xE3 5
/-- One command in every bank of channel 0, and the leaf of its source in the stack's TLB. -/
def sWave (c : CCmd) : State := (List.range 16).foldl (fun s k => s.setBank 0 k (fun b => { b with buf := [c] }))
  (sS.setDie 64 (fun d => { d with tlb := [{ fn := 0, base := 0, size := 2 ^ 30, leaf := 0x3FB }] }))
/-- How a command ends in bank 15: it commits, with bytes for its row or none, it fails, or it waits. -/
def outKind (s : State) (c : CCmd) : Nat :=
  match s.combRun 0 15 c (s.bank 0 15) with
  | (_, .commit _ none) => 0
  | (_, .commit _ (some _)) => 1
  | (_, .fail _) => 2
  | (_, .wait) => 3
def sLost : State := (sWave storeRow).setGran 1 (fun g => { g with lost := true })
/-- A node of kind k in the ready pool. -/
def node (k : Nat) : Node := { Node.of (record 64 []) 0x14000 0 with kind := k, nwg := 1, st := .pool, body := 0x10000, hdr := { wgSize := 33, vregs := 8 } }
/-- The mapped memory of `sL` with no thread, and one node. -/
def sNode (n : Node) : State := { sL with strands := [], cxs := [], nodes := [(3, n)], nextId := 9 }

theorem witness_CombSteps : ((sWave reduce).combOldest 0 = some (reduce, List.range 16) ∧ sS.mg.tripped = false ∧ sS.fnLive 0 = true ∧ sS.closing 3 0 = false ∧
      reduce.eff = none ∧ (tget sS.insts 1).all (fun i => !sS.acqPending i.strand 0 .comb 7) = true ∧
      (let s := (sWave reduce).setMg (fun m => { m with slcPhase := true, slcOp := 3, slcCmd := 0 });
        s.closing 3 0 = true ∧ s.combOldest 0 = some (reduce, List.range 16) ∧ s.fnLive 0 = true)) ∧
    (∀ c ∈ [reduce, { reduce with parity := true }, { reduce with bad := true }], ((sWave c).bank 0 15).buf.find? (fun e => e.id == 7) = some c) ∧
    (reduce.parity = false ∧ reduce.bad = false ∧ sS.chanSlice 0 = 0 ∧ ((sWave reduce).combSees reduce 0 15).isSome = true ∧
      (sClosed.chanSlice 0 ≠ 0)) ∧
    (outKind (sWave reduce) reduce = 0 ∧ outKind (sWave storeRow) storeRow = 1 ∧ outKind sLost storeRow = 2) ∧
    ((tget sS.insts 1).isSome = true ∧ (sS.bank 0 15).faulted = 0 ∧ sS.rowNoWrite (rowLoc 0 5 15) = false ∧ sS.exhausted (rowLoc 0 5 15) = false) ∧
    ((sS.rowRead (ccmd 0xE2 5) 0 15 5 0 2).isSome = true ∧ (sS.rowRead (ccmd 0xE4 5) 0 15 5 0 1).isSome = true ∧
      okOf ((sWave reduce).combSrc (ccmd 0xE1 0x10000) 0 15 0 64) = true ∧ okOf ((sWave reduce).combSrc (ccmd 0xEA 0x10000) 0 15 0 1024) = true) ∧
    (let s := sNode (node 2); s.nodePick = some (3, node 2) ∧ (s.channels 0)[0]? = some 0 ∧ (node 2).kind = 2 ∧ 0 ∉ (node 2).completed ∧
      s.chanOpen 0 0 = true ∧ s.cxs = [] ∧ s.chanBusy 0 = false ∧ s.chanReset 0 = false ∧ s.keptFor 2048 0 = false) := by
  and_intros <;> decide +kernel

/-- `sD` privileged, with registers as given. -/
def sPriv (rs : List (Nat × W64)) : State :=
  (turn sD (fun st => { st with sregs := rs.foldl (fun v r => v.set r.1 r.2) st.sregs })).setFunc 0 (fun f => f.setReg 0x01C 0x1000000010000)
def group (kind : Nat) (members : List Nat) : Group := ⟨kind, 0, members.length, members, 0, [], [], []⟩
/-- `sL` as workgroup 0 of a node with one group entry. -/
def sGroup (gs : List Group) : State :=
  { sCx (fun c => { c with hdr := { c.hdr with groups := 1 }, node := 3 }) with nodes := [(3, { node 0 with groups := gs })] }
def sPairUp : State := sGroup [group 0 [0, 1]]
def grpHd (s : State) (f : Rrr) : Hd := { rrr 0xF1 f with ok := (rrr 0xF1 f).ok && decide (f.a.toNat % 4 < (s.hdrOf (now s)).groups) }
/-- What a piece of the walker's work answers. -/
def wkVal {α : Type} (m : Wk α) (s : State) : Option α := (m.run.run s).1
/-- Lead code whose s6 points to an array of one pointer to a record. -/
def sSpawn : State := let s := sPriv [(6, 0x13000), (8, 1)]; { s with mem := mwrite (mwrite s.mem 0x13000 (toLE 8 0x14000)) 0x14000 (record 64 [(0, [5])]) }
/-- `sSpawn` with a write in the lead thread's history that has not been applied; with no place in the intake; with the second
GiB in host memory. -/
def sLeft : State := turn { sSpawn with inflight := [{ wr 0x11000 false with strand := 9 }] }
  (fun st => { st with lanes := st.lanes.map (fun l => { l with ord := { l.ord with hist := [(7, .core)] } }) })
def sNoIntake : State := { sSpawn with nodes := [(3, node 5)], intake := [3] }
def sHostRoots : State := { sSpawn with mem := mwrite sSpawn.mem 0x200008 (toLE 8 0x20000000000003FB) }
/-- `sPriv` with a store of its thread still to be performed. -/
def sStoring : State := { (sPriv []).updStrand 1 (fun st => { st with pends := [pend 0x89 ⟨0, 4, 6, 0, 7⟩ 0 [⟨0, 0x10080, 0⟩]] }) with nextId := 9 }
def okList {α ε : Type} : Option (Except ε α) → Bool
  | some (.ok _) => true
  | _ => false
def badList {α ε : Type} : Option (Except ε α) → Bool
  | some (.error _) => true
  | _ => false
def sysDone : SysOut → Bool
  | .done _ => true
  | _ => false
def sysTrap : SysOut → Bool
  | .trap _ _ => true
  | _ => false

theorem witness_SystemInstructions : Readies ([sSpawn, sLeft, sNoIntake, sHostRoots, sD].flatMap (fun s => forms s [0xF0] ⟨0, 4, 6, 8, 0⟩) ++
      [0, 1, 2, 3, 4, 5, 6].map (fun x => (sPairUp, grpHd sPairUp ⟨0, 4, 0, 0, x⟩)) ++ [(sPriv [], sysHd 0xF2 ⟨0, 4, 0, 16, 0⟩), (sD, sysHd 0xF2 ⟨0, 4, 0, 16, 0⟩)] ++
      [sPriv [], sD, sStoring].map (fun s => (s, sysHd 0xF3 ⟨0, 4, 0, 16, 0⟩))) ∧
    ((let left (s : State) := s.unapplied (fun id => ((now s).lane 0).ord.hist.any (·.1 == id)); left sSpawn = false ∧ left sLeft = true) ∧
      sLeft.intakeFree 0 = true ∧ sNoIntake.intakeFree 0 = false ∧ sHostRoots.intakeFree 0 = true ∧ sSpawn.intakeFree 0 = true ∧
      wkVal (wkSpawn 0 0x40000000 1 Ord.empty) sHostRoots = none) ∧
    (bits ((now sSpawn).pair 0 6).toNat 63 60 = 0 ∧ ((now sSpawn).pair 0 6).toNat % 8 = 0 ∧ ((now sSpawn).src 0 8).toNat % 65536 = 1 ∧
      ((now sD).src 0 8).toNat % 65536 = 0 ∧ okList (wkVal (wkRoots 0 0x13000 1) sSpawn) = true ∧ badList (wkVal (wkRoots 0 0x40000000 1) sSpawn) = true ∧
      (wkVal (wkSubmit 0 {} [0x14000]) sSpawn).isSome = true) ∧
    ((slotsOf [group 0 [0, 1]] 0)[0]? = some 0 ∧ (slotsOf [group 0 [0, 1]] 0)[1]? = none ∧ (slotsOf [group 1 [0]] 0)[0]? = some 0 ∧
      (group 0 [0, 1]).kind = 0 ∧ (group 1 [0]).kind ≠ 0 ∧ (group 0 [0, 1]).members[0]? = some 0 ∧ (group 0 [0, 1]).members[2]? = none ∧
      0 ∉ (group 0 [0, 1]).arrived ∧ (group 0 [0]).arrived.length + 1 = (group 0 [0]).count) ∧
    ((sPriv []).privileged (now (sPriv [])) = true ∧ sD.privileged (now sD) = false ∧ sysPf 16 = false ∧ sysPf 0x110 = true ∧
      (sPriv []).workDone (sPriv []).cur 0 1 (sPriv []).nextId = true ∧ sysDone ((sPriv []).sysWrite 0 16 5) = true ∧
      sysTrap ((sPriv []).sysWrite 0 0x110 0) = true ∧ sStoring.privileged (now sStoring) = true ∧ sStoring.workDone sStoring.cur 0 1 sStoring.nextId = false) :=
  ⟨readies (by decide +kernel), by and_intros <;> decide +kernel⟩

def gotOk {α : Type} : State × Got α → Bool
  | (_, .ok _) => true
  | _ => false
def gotStop {α : Type} : State × Got α → Bool
  | (_, .stop _ _) => true
  | _ => false
/-- A function with a fault queue of two entries, and one record waiting for it. -/
def sQ (base : Nat) : State := (sFault false).setFunc 0 (fun f => { (f.setReg 0x014 base).setReg 0x015 2 with fqWait := [fault], fqWaitOf := [some (1, 31)] })
/-- The same after a write that failed. -/
def sStuck : State := (sQ 0x12000).setFunc 0 (fun f => { f with fqStuck := true })
/-- The record of a load that can be performed again, or not, posted at index 0. -/
def sPosted (r : Bool) : State := (sQ 0x12000).setFunc 0 (fun f => { f with fqPosted := [(0, (1, 31, { fault with recov := r, replay := 2 }))]
                                                                            replays := [⟨1, 31, pend 0x84 ⟨0, 4, 6, 0, 7⟩ 1 [⟨31, 0x10080, 0⟩], false⟩] })

theorem witness_SystemRegisterSteps : ((∀ t ∈ [false, true], sL.mmioOk 0 t = true) ∧ sL.drained 0 = true ∧ sL.chanSlice (chanOf (5 * 65536)) = 0) ∧
    ((∀ base ∈ [0x12000, 0x40000000], let x := (sQ base).func 0; x.fqWait = [fault] ∧ x.fqWaitOf = [some (1, 31)] ∧ 2 ≤ x.reg 0x015 ∧
        (x.fqTail + 1) % x.reg 0x015 ≠ x.reg 0x016 ∧ x.fqStuck = false) ∧ (sStuck.func 0).fqStuck = true ∧ (sStuck.func 0).fqWait = [fault]) ∧
    (gotOk ((sQ 0x12000).fnWrite 80 0 0x12000 (fault.bytes false)) = true ∧ gotStop ((sQ 0x40000000).fnWrite 80 0 0x40000000 (fault.bytes false)) = true) ∧
    (∀ r ∈ [true, false], tget ((sPosted r).func 0).fqPosted 0 = some (1, 31, { fault with recov := r, replay := 2 }) ∧
      ((sPosted r).func 0).replays.any (fun e => e.of 1 31 { fault with recov := r, replay := 2 }) = true ∧ ((sPosted r).strand 1).isSome = true ∧
      ((sPosted r).cx 1).isSome = true) ∧
    (∀ n ∈ [0x000, 0x01A, 0x110], sysKnown n = true) ∧
    ((sL.setFunc 0 (fun f => { f with ifState := 2 })).mmioOk 0 false = false ∧ (sL.setFunc 0 (fun f => { f with ifState := 3 })).mmioOk 0 true = false) := by
  decide +kernel

def sFlight (w : Wr) : State := { sL with inflight := [w] }
def sApplied (w : Wr) : State := { sL with applied := [w] }
def plain : Wr := wr 0x11000 false
def remote : Wr := wr (2 ^ 72 + 5) false
def carrying : Wr := { plain with carry := [(9, .core)] }
/-- A miss of one core, for a load that waits there, and a miss of an engine. -/
def sMiss : State := { sPend (pend 0x84 ⟨0, 4, 6, 0, 7⟩ 1 [⟨0, 0x10080, 0⟩]) with dies := [(0, { Die.reset with misses := [miss 1 [0]] })] }
def engMiss : Miss := { miss 1 [] with eng := some true }
def sEngMiss : State := { sL with dies := [(0, { Die.reset with misses := [engMiss] })] }

theorem witness_WriteSteps : ((∀ w ∈ [plain, wr 0x11000 true, remote], (sFlight w).inflight.find? (fun v => v.id == 7) = some w ∧ (sFlight w).mayApply w = true) ∧
      isPeer plain.loc = false ∧ isPeer remote.loc = true ∧ plain.path ≠ .copy ∧ (sL.homeRefuses 0 0x11000 4 true).isNone = true) ∧
    (let s := { sPosted false with inflight := [{ plain with owner := some 3 }] };
      s.mayApply { plain with owner := some 3 } = true ∧ (s.homeRefuses 3 0x11000 4 true).isSome = true ∧ (s.homeRefuses 0 0x11000 4 true).isNone = true) ∧
    ((sApplied plain).applied = [plain] ∧ plain.carry = [] ∧ plain.all = false ∧ plain.op = .store ∧ (Path.core, 79) ∉ plain.vis) ∧
    (let s := { sApplied carrying with inflight := [{ wr 0x12000 false with id := 9 }] };
      s.applied.find? (fun v => v.id == 7) = some carrying ∧ (9, Path.core) ∈ carrying.carry ∧ s.inflight.any (fun v => v.id == 9) = true) ∧
    ((sMiss.die 0).misses = [miss 1 [0]] ∧ (miss 1 [0]).walking = false ∧ (miss 1 [0]).eng = none ∧ (sMiss.missNeeds (miss 1 [0]) 0).map (fun n => n.r) = [true] ∧
      (sEngMiss.die 0).misses = [engMiss] ∧ engMiss.walking = false) := by
  decide +kernel

def okVal {α ε : Type} : Option (Except ε α) → Option α
  | some (.ok x) => some x
  | _ => none
/-- `sL` without its threads, its function's system registers as given, and bytes in its mapped memory. -/
def sFn (regs : List (Nat × Nat)) (ms : List (Nat × List Byte)) : State :=
  let s := sNode (node 0)
  { s.setFunc 0 (fun f => regs.foldl (fun f r => f.setReg r.1 r.2) f) with nodes := [], mem := ms.foldl (fun m e => mwrite m e.1 e.2) s.mem }
/-- A submission ring of four entries with one root of kind 5 in it. -/
def sRing : State := sFn [(0x019, 0x15000), (0x01A, 4 + 2 ^ 32)]
  [(0x15000, toLE 8 0x13000 ++ toLE 2 1), (0x13000, toLE 8 0x14000), (0x14000, record 64 [(0, [5])])]
/-- A launch table whose entry 2 accepts device 9: its flags, and its last sequence number 4. -/
def sLaunch (flags : Byte) : State := sFn [(0x01B, 0x16000)]
  [(0x16040, record 32 [(0, [3, flags, 1]), (4, [9]), (8, toLE 8 0x13000), (16, toLE 8 0x17000), (24, [4])]), (0x13000, toLE 8 0x14000), (0x14000, record 64 [(0, [5])])]
/-- The same while its function is quiesced, with packets held. -/
def sHolds (n : Nat) : State := (sLaunch 1).setFunc 0 (fun f => { f with quiesce := some false, heldLaunch := List.replicate n (2, 9, 5, 77) })
/-- The same again once it runs. -/
def sResumed : State := (sLaunch 1).setFunc 0 (fun f => { f with heldLaunch := [(2, 9, 5, 77)] })
/-- Everything an accepted launch does, in order. -/
def launchAll : Wk Bool := do
  match ← wkRead 0 0x16040 32 with
  | .error _ => pure false
  | .ok b =>
    let x ← wkWrite 0 0x16058 (toLE 4 5)
    let y ← wkWrite 0 0x16041 (toLE 1 (leAt b 1 1 ||| 2))
    match ← wkPeerWrite 0 2 (leAt b 16 8) (toLE 8 77) with
    | .error _ => pure false
    | .ok ws =>
      match ← wkRoots 0 (leAt b 8 8) (leAt b 2 2) with
      | .error _ => pure false
      | .ok ps =>
        let ids ← wkSubmit 0 { pmax := 3, launch := some 2, order := { Ord.empty with hist := ws } } ps
        pure (x.isNone && y.isNone && !ids.isEmpty)
/-- A collective of three ranks, one element each, that sends nothing; and the same with all its contributions, and written. -/
def coll (op : Byte) : Coll := { body := record 64 [(0, [op]), (16, toLE 8 0x17000), (24, [1])], ids := [1, 2, 3], rank := 0, own := [5], parts := [], acks := [] }
def collNode (c : Coll) : Node := { node 3 with st := .running, coll := some c }
def collAll : Coll := { coll 0 with parts := [(1, [6]), (2, [7])] }
def collDone : Coll := { collAll with wrote := true }
/-- A gang whose workgroups have been due for the whole of the clock. -/
def gangNode : Node := { node 0 with due := some 0 }
def sGang : State := { (sNode gangNode).setFunc 0 (fun f => f.setReg 0x011 0) with nodes := [(3, gangNode), (4, { node 0 with held := true })] }
def begun : Node := { node 0 with startedAt := some 0 }
def sOver (strands : List Nat) (f : Cx → Cx) : State :=
  { sCx (fun c => f { c with strands := strands, node := 3, started := false, begun := false }) with nodes := [(3, { node 0 with st := .running })] }
/-- Context 1 not started, or over; and one started whose first warp is in its first run. -/
def sFirst : State := turn { sOver [1] (fun c => { c with started := true }) with clock := 5 } (fun st => { st with run := some ⟨0xFFFFFFFF, 1, 0, []⟩ })
def doneNode : Node := { node 0 with st := .done, status := 4 }

theorem witness_WalkerSteps :
    ((sRing.func 0).reg 0x01A % 65536 = 4 ∧ (sRing.func 0).sqHead ≠ bits ((sRing.func 0).reg 0x01A) 47 32 ∧ sRing.fnRuns 0 = true ∧ sRing.intakeFree 0 = true ∧
      (okVal (wkVal (wkRead 0 0x15000 16) sRing)).map (fun b => (leAt b 0 8, leAt b 8 2, leAt b 10 6)) = some (0x13000, 1, 0) ∧
      okVal (wkVal (wkRoots 0 0x13000 1) sRing) = some [0x14000] ∧ (wkVal (wkSubmit 0 {} [0x14000]) sRing).isSome = true) ∧
    ((∀ fl ∈ [1, 3], (sLaunch fl).intakeFree 0 = true ∧ (sLaunch fl).retries 0 = false ∧ ((sLaunch fl).func 0).heldLaunch = [] ∧
        ((okVal (wkVal (wkRead 0 0x16040 32) (sLaunch fl))).any fun b => decide (leAt b 0 1 < 8 ∧ leAt b 1 1 % 2 = 1 ∧ leAt b 1 1 < 4 ∧ leAt b 2 2 = 1 ∧
          leAt b 4 4 = 9 ∧ leAt b 28 4 = 0 ∧ leAt b 24 4 = 4 ∧ space0 (leAt b 16 8) 8 = true)) = true) ∧ wkVal launchAll (sLaunch 1) = some true) ∧
    (∀ n ∈ [63, 64], (sHolds n).retries 0 = true ∧ ((sHolds n).func 0).heldLaunch.length = n) ∧
    (sResumed.intakeDrain 0 = sResumed ∧ (sResumed.func 0).heldLaunch = [(2, 9, 5, 77)] ∧ sResumed.intakeFree 0 = true ∧ sResumed.retries 0 = false) ∧
    (let s := { sNode (node 0) with intake := [3] };
      (s.intake.find? (fun k => ((tget s.nodes k).map Node.fn) == some 0)) = some 3 ∧ 2 ≤ (s.slice 0).rpq ∧ s.nodes.length = 1 ∧ (s.func 0).heldLaunch = []) ∧
    ((sNode (node 1)).nodePick = some (3, node 1) ∧ (sNode (node 1)).poolOpen 0 0 = true ∧ (sNode (node 1)).poolOpen 0 70 = false ∧
      (List.range (node 2).nwg).find? ((sNode (node 2)).instReady 3 (node 2)) = some 0) ∧
    ((∀ k ∈ [0, 2, 5], (sNode (node k)).nodePick = some (3, node k) ∧ (sNode (node k)).starved = none) ∧ (node 0).startedAt = none ∧
      (sNode begun).nodePick = some (3, begun) ∧ (sNode begun).dueWgs 3 begun = [0] ∧ ((sNode begun).admitWg 3 begun 0 0 0).isSome = true) ∧
    (((sOver [1] id).cx 1).any (fun c => decide (c.node = 3 ∧ c.started = false ∧ c.resident = true)) = true ∧ (sOver [1] id).fnRuns 0 = true ∧
      ((sOver [] (fun c => { c with started := true })).cx 1).any (fun c => decide (c.node = 3 ∧ c.started = true ∧ c.resident = true) &&
        (sOver [] (fun c => { c with started := true })).wgOver 1 c) = true ∧ tget sL.insts 1 = none) ∧
    (sFirst.cxs.filter (fun e => e.2.started && !e.2.begun) = [(1, cxOf sFirst)] ∧ (cxOf sFirst).node = 3 ∧ (1, now sFirst) ∈ sFirst.strands ∧ (now sFirst).cx = 1 ∧
      (now sFirst).ctx = .L ∧ (now sFirst).fg = none ∧ (now sFirst).wid = 0 ∧ 0 < (now sFirst).runLen) ∧
    (doneNode.order.hist = [] ∧ doneNode.succCnt = 0 ∧ doneNode.launch = none ∧ (sNode doneNode).retries 0 = false ∧
      (wkVal (wkWrite 0 (doneNode.record.toNat + 60) (toLE 1 4)) (sNode doneNode)).map Option.isNone = some true) ∧
    (let s := sFn [] [(0x14000, record 64 [(0, [5]), (44, [1])])];
      (okVal (wkVal (wkRead 0 0x14000 64) s)).map (fun b => leAt b 44 4) = some 1 ∧ space0 0x14000 64 = true ∧ (wkVal (wkWrite 0 0x1402C (toLE 4 0)) s).map Option.isNone = some true ∧
      (wkVal (wkReady 0 0x14000 { skip := true, order := Ord.empty }) s).isSome = true) ∧
    ((∀ op ∈ [0, 4], leAt (coll op).body 0 1 = op.toNat ∧ (sNode (collNode (coll op))).retries 0 = false ∧ tget (sNode (collNode (coll op))).nodes 3 = some (collNode (coll op))) ∧
      collElems (coll 0).body 0 3 = 1 ∧ (coll 0).ids.length = 3 ∧ ((sNode (collNode (coll 0))).setFunc 0 (fun x => { x with quiesce := some false })).retries 0 = true) ∧
    ((collAll.result 0).isSome = true ∧ (collAll.result 0).any (fun vs =>
        ((okVal (wkVal (wkPeerWrite 0 2 0x17000 (vs.flatMap (fun v => toLE (collSize collAll.body) v.toNat))) (sNode (collNode collAll)))).isSome)) = true ∧
      collDone.wrote = true ∧ (sNode (collNode collDone)).mg.linkQ = [] ∧ leAt collDone.body 3 1 = 0) ∧
    (sGang.gangAge gangNode = some 0 ∧ gangNode.waitCyc = 0 ∧ gangNode.preCyc = 0 ∧ sGang.canAdmit 3 gangNode = false) := by
  and_intros <;> decide +kernel

/-- `sL` with context 1 asked to leave its core, its one thread at an end, save area 0 at 0x100000 (R326, R428). -/
def sSave (f : Cx → Cx) : State :=
  ((sL.setFunc 0 (fun g => ((g.setReg 0x010 0).setReg 0x012 0x100000).setReg 0x013 0x100000010)).updCx 1 (fun c =>
    f { c with preempt := some 0, preemptCyc := 0, saveSlot := some 0, area := 0x100000, forced := true, hdr := { c.hdr with sram := 0 } })).updStrand 1
      (fun st => { st with run := none, lanes := st.lanes.map (fun _ => Lane.never) })
/-- The same of a comb instance. -/
def sSaveI (f : Cx → Cx) : State :=
  ((sS.setFunc 0 (fun g => (g.setReg 0x012 0x100000).setReg 0x013 0x100000010)).updCx 1 (fun c =>
    f { c with preempt := some 0, preemptCyc := 0, saveSlot := some 0, area := 0x100000, forced := true })).updStrand 1 (fun st => { st with run := none })
def cx1 (s : State) : Cx := (s.cx 1).getD (Cx.at (placeHeader .L) 0 0 [] none)
def pageNow : List TlbEnt := [{ fn := 0, base := 0, size := 2 ^ 30, leaf := 0x3FB }]
def atHand (d : Nat) (s : State) : State := s.setDie d (fun x => { x with tlb := pageNow })
/-- What a save writes, in order: whether each access went through. -/
def saveAll (s : State) : Option Bool :=
  match s.quiesceCmds 1 with
  | (s1, some rems) =>
    let (main, fo, flts) := s1.areaImage (cx1 s1) (s.matrixImage 1 (cx1 s)) rems
    let (s3, r) := s1.areaWrite 0 0 (cx1 s).area main
    some (gotOk (s3, r) && gotOk (s3.areaWrite 0 0 ((cx1 s).area + fo) flts) && decide (0 < main.length))
  | _ => none
/-- A context that is to be saved, one that is saved, and an instance each. -/
def sGone : State := sSave id
def sGoneI : State := sSaveI id
def sBack : State := sSave (fun c => { c with resident := false, savedForm := some 2 })
def sBackI : State := sSaveI (fun c => { c with resident := false, savedForm := some 2 })
/-- The same with the area where nothing is mapped. -/
def adrift (c : Cx) : Cx := { c with area := 0x40000000 }
def aLcr : Lcr := { log2n := 2, carry := 1, ovf := 0, spill := List.replicate 16 0 }
def aBar : Bar := { valid := true }

theorem witness_SaveSteps : (∀ b ∈ [true, false], let s := sSave (fun c => { c with forced := b });
      (cx1 s).preempt = some 0 ∧ (cx1 s).forced = b ∧ (cx1 s).preemptCyc ≤ s.clock) ∧
    (sGone.cx 1 = some (cx1 sGone) ∧ (cx1 sGone).saveBad = none ∧ sGone.saveReady 1 (cx1 sGone) = true ∧ (cx1 sGone).core < 1024 ∧ saveAll sGone = some true) ∧
    (saveAll (sSave adrift) = some false ∧ gotStop ((sSave adrift).areaWrite 0 0 0x40000000 [0]) = true) ∧
    (sGoneI.saveReady 1 (cx1 sGoneI) = true ∧ 1024 ≤ (cx1 sGoneI).core ∧ (tget sGoneI.insts 1).isSome = true ∧
      -- an instance's image has 54784 bytes, whatever they are
      gotOk (sGoneI.areaWrite 64 0 0x100000 (List.replicate 54784 0)) = true) ∧
    ((sBack.dispatchPick).any (fun p => p.saved && p.id == 1) = true ∧ (sBack.occupy 1 0 0).isSome = true ∧ sBack.savedGang 1 (cx1 sBack) = [1] ∧
      gotOk (sBack.areaRead 0 0 0x100000 256) = true ∧ gotStop ((sSave adrift).areaRead 0 0 0x40000000 256) = true) ∧
    (sBack.occupy 1 0 0).any (fun t => match t.restoreOne 1 with | .ok _ => true | _ => false) = true ∧
    ((sBackI.channels 0)[0]? = some 0 ∧ (cx1 sBackI).wg = 0 ∧ (sBackI.dispatchPick).any (fun p => p.saved && p.id == 1) = true ∧ sBackI.chanOpen 0 0 = true ∧
      sBackI.chanBusy 0 = false ∧ sBackI.chanReset 0 = false ∧ sBackI.keptFor 2048 1 = false ∧ (now sBackI).lanes.length = 1 ∧ ((now sBackI).lane 0).st = .ready ∧
      gotOk (sBackI.areaRead 64 0 0x100000 54784) = true) ∧
    (aLcr.log2n.toNat ≤ 5 ∧ aLcr.spill.length = 16 ∧ aBar.valid = true ∧ aBar.out = 0 ∧ aBar.carry = [] ∧ aBar.lcarry = [] ∧ aBar.pending = 0) := by
  and_intros <;> decide +kernel

/-- A slice command in progress, as the words of SLCMD give it. -/
def sSlc (op : Nat) (cmd : W64) : State := (sNode (node 5)).setMg (fun m => { m with slcBusy := true, slcOp := op, slcCmd := cmd, slcArg := 0x18000 })
def idle (s : State) : State := { s with nodes := [], cxs := [], strands := [] }
/-- Slice 1 exists, in a state, and owns channel 7 and core 7; channel 8 and core 8 are free. -/
def sTwo (st op : Nat) (cmd : W64) : State :=
  (((idle (sSlc op cmd)).setSlice 1 (fun _ => { Slice.zero with st := st })).setMg (fun m => { m with
    chanOwner := [(7, 1), (8, 65)], coreOwner := [(7, 1), (8, 65)] }))
def two : W64 := 0x100000000
/-- A parameter record with everything legal, or one with RPQ 0. -/
def params (rpq : Byte) : List Byte := record 32 [(4, [1]), (6, [1]), (8, [1]), (10, [64]), (12, [16]), (16, [rpq])]
def sParams (rpq : Byte) (st op : Nat) : State := let s := sTwo st op two; { s with mem := mwrite s.mem 0x18000 (params rpq) }
def runsSlc (s : State) (op : Nat) : Bool := s.mg.slcBusy && s.mg.slcOp == op && s.mg.slcPend.isNone && !s.mg.slcPhase && s.slcRefused.isNone
/-- A removal that waits for its target's work to end, and a command that has ended. -/
def sRemove (op : Nat) : State := (sTwo 1 op (two + 7)).setMg (fun m => { m with slcPhase := true })
def sEnding (r : Nat) : State := (sTwo 1 1 (two + 8)).setMg (fun m => { m with slcPend := some r })

theorem witness_SliceSteps : (∀ op < 8, (sTwo 3 op two).slcRefused.isSome = true ∧ ((sTwo 3 op two).slice 1).st ≠ 2) ∧
    (∀ p ∈ [(0, 0), (1, 6)], runsSlc (sParams 8 p.1 p.2) p.2 = true ∧ space0 (sParams 8 p.1 p.2).mg.slcArg.toNat 8 = true ∧
      gotOk ((sParams 8 p.1 p.2).fnRead 80 0 0x18000 32) = true) ∧
    ((sliceParams (params 8) Slice.zero).isSome = true ∧ (sliceParams (params 0) Slice.zero).isNone = true) ∧
    (∀ e ∈ [(1, two + 8), (2, two + 8), (3, two + 7), (4, two + 7), (5, two + 0x800007), (7, two)], runsSlc (sTwo 1 e.1 e.2) e.1 = true) ∧
    -- a locked slice that has accepted
    runsSlc ((sTwo 2 1 (two + 8)).setFunc 1 (fun f => f.setReg 0x12A 0x1000000000000008)) 1 = true ∧
    ((sRemove 3).inflight = [] ∧ ((List.range 16).all fun b => ((sRemove 3).bank 7 b).buf.isEmpty) = true ∧ (sRemove 4).guestsAtRest 7 = true) ∧
    (∀ op ∈ [3, 4], (sRemove op).mg.slcPhase = true ∧ (sRemove op).mg.slcOp = op ∧ (sRemove op).slcTarget = 7 ∧ (sRemove op).mg.slcBusy = true ∧
      (sRemove op).mg.slcPend = none) ∧
    (∀ r ∈ [0, 1], (sEnding r).mg.slcPend = some r) ∧ Memory.wf (sTwo 1 3 (two + 7)).mem = true := by
  and_intros <;> decide +kernel

/-- `sL` with a channel, two granules and a sector in error; and with the channel's spares used up. -/
def sBad : State :=
  (({ sL with poison := [8 * 2048] }.setChan 0 (fun c => { c with sweep := true })).setGran 9 (fun g => { g with held := true })).setGran 8 (fun g => { g with held := true })
def sSpent : State := sBad.setChan 0 (fun c => { c with spares := 16 })
theorem witness_ErrorSteps : ((sBad.chan 0).sweep = true ∧ (sBad.chan 0).spares < 16 ∧ 16 ≤ (sSpent.chan 0).spares) ∧
    (∀ g ∈ [8, 9], (sBad.granule g).held = true ∧ sBad.poison.any (fun p => p / 2048 == g) = (g == 8)) ∧
    ((sBad.cx 1).isSome = true ∧ tget (sNode (node 0)).nodes 3 = some (node 0) ∧ (node 0).st ≠ .done ∧ sBad.l2bad = [] ∧ sBad.mg.linksDown = []) := by
  decide +kernel

/-- Function 1 with an interface state and a session of its own; of nobody's, where `sStranger` is asked for it. -/
def sIf (st : Nat) (f : Func → Func) : State :=
  ((sTwo 1 0 0).setFunc 1 (fun x => f { x with ifState := st })).setMg (fun m => { m with boot := 1, sessions := [⟨some 1, false, 5⟩], via := 0 })
def sStranger (st : Nat) : State := (sIf st id).setMg (fun m => { m with sessions := [] })
def ats (reply : Option AtsReply) (pri : Bool) : Ats := { fn := 1, iova := 3, reply := reply, pri := pri, retried := false }
def sAts (reply : Option AtsReply) (pri : Bool) : State := (sIf 0 id).setDie 0 (fun d => { d with ats := [ats reply pri] })
def sInvalidates : State := sL.setMg (fun m => { m with invalidations := [(4, 0, 3, 1)] })
def sQuiesces (save : Bool) : State := sIf 2 (fun x => { x with quiesce := some save })

theorem witness_HostLinkSteps : (∀ p ∈ [false, true], (sAts none p).atsEntry 0 1 0x30000 = some (ats none p)) ∧
    ((sEng linear).cmdAt 0 0 = some linear ∧ linear.fn = 0 ∧ linear.started = true) ∧
    (sL.mg.invalidations = [] ∧ sInvalidates.mg.invalidations.find? (fun i => i.1 == 4) = some (4, 0, 3, 1) ∧ sInvalidates.inflight = []) ∧
    (∀ st ∈ [0, 1, 2, 3, 4], ((sIf st id).func 1).ifState = st ∧ (sIf st id).session 1 = true ∧ (sStranger st).session 1 = false ∧
      ((sIf st id).viaSession).isSome = true ∧ ((sIf st id).func 1).heldLaunch = []) ∧
    (((sIf 0 id).slice 1).st = 1 ∧ (sIf 0 id).holdsWork 1 = false ∧ Memory.wf (sIf 0 id).mem = true) ∧
    (((sIf 2 id).func 1).quiesce = none ∧ (sIf 2 id).cxs = [] ∧
      ∀ b ∈ [false, true], ((sQuiesces b).func 1).quiesce = some b ∧ (sQuiesces b).quiesceDone 1 = true ∧ (sQuiesces b).cxs = []) := by
  decide +kernel

/-- An export table of one entry: device 9, function 1 may read, write and update 4096 bytes of function 0 at 0x1A000. -/
def sExport : State := (sFn [(0x131, 0x1000000019000)]
  [(0x19000, record 32 [(0, toLE 4 (2 ^ 31 + 2 ^ 20 + 9)), (4, [7]), (8, toLE 8 0x1A000), (16, toLE 8 0x1000)])]).setMg (fun m => { m with boot := 1 })
def sHiding : State := sExport.setFunc 0 (fun f => { f with quiesce := some false })
def exported (need : Need) (atomic : Bool) : Bool :=
  match sExport.exportPlace 9 1 0 8 8 need atomic true with
  | (s, .place a _ g) => !s.homeHeld a && (s.homeRefuses g a 8 need.w).isNone
  | _ => false
def isStop (r : State × Rs) : Bool := match r.2 with | .stop _ => true | _ => false
def keyed (st : Nat) (saved : Bool) : State := sIf st (fun x => { x with migKey := some 7, saved := saved, streams := List.replicate 8 ⟨false, 0, 0, 0⟩ })
/-- A message to device 9 on virtual channel 1. -/
def msg (n : Nat) : Msg := { vc := 1, dev := 9, flits := n, node := none, body := .mmioUr }
/-- The PF, locked and keyed, with bytes of host memory at 0x1000. -/
def sGuest (bs : List Byte) : State :=
  { ((sNode (node 5)).setFunc 0 (fun x => { x with ifState := 1, migKey := some 7 })).setMg (fun m => { m with boot := 1, sessions := [⟨some 0, false, 5⟩], via := 0 }) with
    mem := mwrite [] (hostLoc 0x1000) bs, applied := [], inflight := [] }

/-- An image that opens is met by the statement itself, which says that every list of numbers below 2^64 is what one holds. -/
theorem witness_MigrationSteps : (∀ st ∈ [0, 1, 2, 4], ((keyed st false).func 1).ifState = st ∧ ((keyed st false).func 1).migKey = some 7 ∧ (keyed st false).session 1 = true ∧
      (sStranger st).session 1 = false) ∧
    ((keyed 2 false).ownGran 1 (7 * 16384) = true ∧ (keyed 2 false).ownGran 1 0 = false ∧ ((keyed 4 true).func 1).saved = true ∧ (keyed 4 true).cxs = [] ∧
      ((keyed 1 false).func 1).streams.length = 8) ∧
    ((imAll.run ([0, 0, 0, 0, 1, 1, 1, 64, 512, 65536] ++ List.replicate 57 0)).isSome = true ∧ (openImage 7 []).isNone = true) ∧
    (sExport.retries 0 = false ∧ sExport.enumerated 0 = true ∧ sExport.enumerated 65 = false ∧ sHiding.retries 0 = true ∧ exported { r := true } false = true ∧
      exported { w := true } false = true ∧ exported { r := true, w := true } true = true ∧ isStop (sExport.exportPlace 9 1 0 0x1000 8 { r := true } false true) = true) ∧
    (sExport.mg.linkQ = [] ∧ tget sExport.mg.vcs (msg 1).channel = none ∧ sExport.mg.reserved = [] ∧ (msg 1).flits ≤ 8 ∧ 8 < (msg 9).flits) := by
  and_intros <;> decide +kernel

/-- A page that `importPage` takes: any header and any ciphertext, with their tag. -/
theorem witness_MigrationSteps_import (head ct : List Byte) (hh : head.length = 32) (hc : ct.length = 65536) :
    let index := (Config.readHeader (BitVec.ofNat 256 (leAt head 0 32))).1
    let bs := head ++ ct ++ gcmTag 7 (migIv index.toNat 1) head ct
    let s := sGuest bs
    (s.func 0).migKey = some 7 ∧ (s.func 0).ifState = 1 ∧ s.session 0 = true ∧ s.ownGran 0 index.toNat = true ∧ (s.func 0).importCtr < 1 ∧
    s.homeRead (hostLoc 0x1000) 65584 = bs ∧ bs.take 32 = head ∧ (bs.drop 32).take 65536 = ct ∧ bs.drop 65568 = gcmTag 7 (migIv index.toNat 1) head ct := by
  intro index bs s
  have hb : bs.length = 65584 := by simp [bs, hh, hc]
  refine ⟨by cbv, by cbv, by cbv, ?_, ?_, ?_, ?_, ?_, ?_⟩
  · have : ∀ n, s.chanSlice n = 0 := fun n => by rfl
    simp [State.ownGran, this, index.isLt]
  · have : (s.func 0).importCtr = 0 := by cbv
    omega
  · have e : s.applied = [] := by cbv
    rw [State.homeRead, e, List.foldl_nil, show s.mem = mwrite [] (hostLoc 0x1000) bs from rfl, ← hb, mread_mwrite]
  · simp [bs, hh]
  · simp [bs, hh, hc]
  · rw [show bs = (head ++ ct) ++ _ from rfl, List.drop_append_of_le_length (by simp [hh, hc]), List.drop_eq_nil_of_le (by simp [hh, hc])]
    rfl

/-- A machine with nothing on it, asked by the owner, where a reset is first in the queue, or runs. -/
def sRst (q : List (Nat × Nat × Nat)) (run : Option (Nat × Nat × Nat)) : State :=
  (idle (sNode (node 0))).setMg (fun m => { m with rstQueue := q, rstRun := run, sessions := [⟨none, true, 0⟩], via := 0 })
/-- Every reset of a target 5, and those of the module. -/
def everyReset : List (Nat × Nat × Nat) :=
  (List.range 6).map (fun e => (0, e, 5)) ++ (List.range' 1 5).map (fun l => (l, 0, 5)) ++ [(6, 0, 0), (7, 0, 0)]
/-- A bank that verifies, in neither, one or both places. -/
def sBanks (a b : Bool) : State := State.reset.setMg (fun m => { m with boot := 0, bankA := ⟨a, 0, 0, []⟩, bankB := ⟨b, 0, 0, []⟩ })
def sFailing (n : Nat) : State := (sBanks true true).setMg (fun m => { m with failcnt := n })
/-- Collective engine 5 at work, or another, for a node. -/
def sColl (e : Nat) : State := (sNode (collNode { coll 0 with eng := e })).setMg (fun m => { m with rstRun := some (0, 5, 5) })
/-- A slice reset of slice 1 in a state of it, and a function reset whose function still has a node that is done. -/
def sRstSlice (st : Nat) : State := (sTwo st 0 0).setMg (fun m => { m with rstRun := some (5, 0, 1), rstPend := none })
def sRstDone : State := (sNode { node 0 with st := .running, fn := 1 }).setMg (fun m => { m with rstRun := some (4, 0, 1) })

theorem witness_ResetSteps : (∀ r ∈ everyReset, (sRst [r] none).resetNext r = true ∧ (sRst [] none).resetNext r = true ∧ (sRst [(4, 0, 1)] none).resetNext r = false ∧
      (sRst [r] none).mg.rstRun ≠ some r ∧ (sRst [] (some r)).mg.rstPend = none ∧ (sRst [r] none).byOwner = true) ∧
    ((sRst [(4, 0, 1)] none).mg.rstQueue = [(4, 0, 1)] ∧ (sRst [(7, 0, 0)] none).mg.rstQueue = [(7, 0, 0)] ∧ sL.byOwner = false) ∧
    (∀ st ∈ [0, 1, 2], ((sRstSlice st).slice 1).st = st ∧ (sRstSlice st).mg.rstRun = some (5, 0, 1) ∧ (sRstSlice st).nodes = [] ∧ Memory.wf (sRstSlice st).mem = true) ∧
    ((sRst [(5, 0, 1)] none).setSlice 1 (fun _ => { Slice.zero with st := 2 })).resetNext (5, 0, 1) = true ∧
    (let s := sRst [] (some (0, 0, 5)); s.gcmRuns 0 5 = false ∧ s.cxs = [] ∧ s.guestsAtRest 5 = true ∧ ((List.range 16).map (fun i => 80 + i)).all s.guestsAtRest = true ∧
      ((List.range 16).map (fun i => 1104 + i)).all s.guestsAtRest = true ∧ (List.range 16).any (s.gcmRuns 5) = false ∧ s.inflight = [] ∧
      (List.range 16).all (fun b => (s.bank 5 b).buf.isEmpty) = true) ∧
    (∀ e ∈ [4, 5], (sColl e).nodes.Pairwise (fun a b => a.1 < b.1) ∧ tget (sColl e).nodes 3 = some (collNode { coll 0 with eng := e })) ∧
    ((cx1 sGone).saveSlot = some 0 ∧ (sRstDone.killFunction 1).nodes.any (fun e => e.2.fn == 1 && e.2.st == .done) = true) ∧
    ((sL.setMg (fun m => { m with rstRun := some (4, 0, 1), rstPend := some 0 })).mg.rstPend = some 0 ∧
      (sL.setMg (fun m => { m with tripped := true, sessions := [⟨none, true, 0⟩], via := 0 })).byOwner = true ∧ sL.mg.tripped = false) ∧
    ((sBanks true false).mg.bankValid false = true ∧ (sBanks true false).mg.bankValid true = false ∧ (sBanks false false).mg.bankValid false = false ∧
      (sBanks false false).mg.boot = 0 ∧ (sFailing 1).mg.failcnt < 2 ∧ 2 ≤ (sFailing 2).mg.failcnt ∧ (sFailing 2).mg.boot = 0) := by
  and_intros <;> decide +kernel

/-- The module with an owner's session, and firmware staged or being activated. -/
def sOwn (fw : Nat) (minsvn : Nat) : State :=
  State.reset.setMg (fun m => { m with sessions := [⟨none, true, 0⟩], via := 0, fwstate := fw, minsvn := minsvn })
def sRecovering : State := (sOwn 3 0).setMg (fun m => { m with boot := 2 })
theorem witness_FirmwareAndPower : (∀ fw ∈ [0, 1, 2, 3], (sOwn fw 0).byOwner = true ∧ (sOwn fw 0).mg.fwstate = fw) ∧ State.reset.byOwner = false ∧
    ((sOwn 3 0).allHeld = true ∧ (sOwn 3 0).mg.boot ≠ 2 ∧ sRecovering.allHeld = true ∧ sRecovering.mg.boot = 2) ∧
    (let s := State.reset.setMg (fun m => { m with tripped := true, temps := [(0, 115), (1, 60)] }); s.mg.tripped = true ∧ ∀ e ∈ s.mg.temps, 1 ≤ e.1 → e.2 ≤ 85) := by
  decide +kernel
/-- An image whose SVN is high enough, and one below MINSVN, whatever the image says its SVN is. -/
theorem witness_FirmwareAndPower_svn (bs : List Byte) : (sOwn 1 0).mg.minsvn ≤ (Config.imageSvn bs).toNat ∧
    ((sOwn 1 0).mg.bank (sOwn 1 0).mg.activeB).svn ≤ (Config.imageSvn bs).toNat ∧ (Config.imageSvn bs).toNat < (sOwn 1 (2 ^ 16)).mg.minsvn :=
  ⟨Nat.zero_le _, Nat.zero_le _, (Config.imageSvn bs).isLt⟩

/-- `iadd v4, v6, v7` in `sL`, or with a window entry for v7, and what it leaves. -/
def addHd (b s : BitVec 1) : Hd := rrr 0x01 ⟨s, 4, 6, if b = 1 then 56 else 7, 7⟩
def addOut : Out := ⟨turn sL (fun st => { st with vregs := st.vregs.set 4 (.u 0) }), .reg 4, [], false⟩
/-- The 24th instruction of a run. -/
def sLast : State := turn sL (fun st => { st with run := st.run.map (fun r => { r with n := 23 }) })
theorem witness_RunAdvances : Readies [(sL, addHd 0 0), (sL, addHd 0 1), (sLast, addHd 0 0)] ∧
    (addOut.s.strand sL.cur = some (now addOut.s) ∧ (now addOut.s).lanes.length = (now sL).lanes.length ∧ (now addOut.s).runEnd = false ∧ addOut.pcs = [] ∧
      (∀ k < 32, ((now addOut.s).lane k).st = .ready ∧ ((now addOut.s).lane k).act = none)) ∧ (now sL).runLen + 1 ≠ 24 ∧ (now sLast).runLen + 1 = 24 :=
  ⟨readies (by decide +kernel), by decide +kernel⟩

theorem witness_RegisterFrame : Readies (forms sL (List.range 0x18 ++ [0x1A, 0x40, 0x41, 0x42, 0x43, 0x45, 0x46]) ⟨0, 4, 6, 0, 7⟩ ++
      forms sL [0x26] ⟨0, 4, 0, 0, 7⟩ ++ [0x1D, 0x1E, 0x1F, 0x20, 0x21, 0x22].map (fun op => (sL, rri op ⟨0, 4, 6, 5⟩)) ++
      [0x1B, 0x1C].map (fun op => (sL, ri16 op ⟨0, 4, 5⟩))) ∧ ((now sL).runLen + 1 ≠ 24 ∧ (addHd 0 0).s = false) :=
  ⟨readies (by decide +kernel), by decide +kernel⟩

/-- Every instruction that issues, with fields no instruction has, with ones `iadd` has, and with a window entry for `b`. -/
def everyWord (f : Rrr) : List (Instr × Hd) := issues 1 f ⟨0, 63, 63, 0⟩ ⟨0, 63, 0⟩ ⟨0, 0, 15⟩ ⟨0, 0⟩ ⟨0, 31, 31⟩
def fieldsOk (s : State) (h : Hd) : Bool := h.ok && h.row.regsOk (now s).ctx.wide (s.hdrOf (now s)).vregs h.f
def sFullRun : State := turn sL (fun st => { st with run := st.run.map (fun r => { r with nl := 8 }) })
theorem witness_DecodeTraps : (∀ s ∈ [sL, sS, sFullRun], s.strand s.cur = some (now s) ∧ s.canIssue s.cur (now s) = true) ∧
    ((everyWord ⟨0, 63, 63, 63, 15⟩).any (fun p => p.2.row.op == 0x84 && !fieldsOk sL p.2) = true ∧
      -- iadd in a comb unit, cmac in a core
      fieldsOk sS (rrr 0x72 ⟨0, 4, 6, 6, 0⟩) = true ∧ bit (rrr 0x72 ⟨0, 4, 6, 6, 0⟩).row.ctx (now sS).ctx.bit = false ∧
      fieldsOk sL (rrr 0xE4 ⟨0, 1, 6, 6, 0⟩) = true ∧ bit (rrr 0xE4 ⟨0, 1, 6, 6, 0⟩).row.ctx (now sL).ctx.bit = false) ∧
    -- a full run, and a window entry before the run has one
    (fieldsOk sFullRun (rrr 0x84 ⟨0, 4, 6, 0, 7⟩) = true ∧ (rrr 0x84 ⟨0, 4, 6, 0, 7⟩).row.long = true ∧ (now sFullRun).runLong = 8 ∧
      bit (rrr 0x84 ⟨0, 4, 6, 0, 7⟩).row.ctx (now sL).ctx.bit = true) ∧
    (fieldsOk sL (addHd 1 0) = true ∧ bit (addHd 1 0).row.ctx (now sL).ctx.bit = true ∧ (addHd 1 0).row.long = false ∧
      ∃ n ∈ (addHd 1 0).row.winReads (addHd 1 0).f, (now sL).runLen < n) := by
  and_intros <;> decide +kernel

/-- `s` once it has chosen the strand that issues, and what that strand's fetch gives. -/
def chosen (s : State) : State := { s.tick with turn := s.tick.turn + 1 }.takeTurn 1
def fetched (s : State) : Option (List Byte) :=
  match ({ (chosen s).formGroup 1 with cur := 1 }.fetch 1 (now (chosen s)) (lowest (now (chosen s)).group)
      ((now (chosen s)).lane (lowest (now (chosen s)).group)).pc).2 with
  | .bytes bs => some bs
  | _ => none
/-- A word whose opcode is that of `iadd` and whose guard is 15, which no instruction has. -/
def sIll : State := State.reset.withFetchWord 32 0xF0000005
theorem witness_StepRunsDecoded : (∀ s ∈ [sL, sIll], s.agenda = [] ∧ s.tick.turn % 2 = 0 ∧ { s.tick with turn := s.tick.turn + 1 }.nextStrand = some 1 ∧
      (chosen s).strand 1 = some (now (chosen s)) ∧ (chosen s).canIssue 1 (now (chosen s)) = true) ∧
    fetched sL = some [0x01, 0, 0, 0x70] ∧ fetched sIll = some [0x05, 0, 0, 0xF0] := by
  decide +kernel

/-- Whether a word decodes to an instruction. -/
def decodes (w : Nat) (i : Instr) : Bool :=
  match decodeWord w with
  | .ok j => decide (j = i)
  | .error _ => false
theorem witness_DecodeEncode : (Instr.iadd ⟨0, 1, 2, 3, 7⟩).wf = true ∧ (Instr.iadd ⟨0, 1, 2, 3, 7⟩).size ≠ 0 ∧
    decodes 0x70C20405 (.iadd ⟨0, 1, 2, 3, 7⟩) = true := by
  decide +kernel

theorem witness_StepKeepsMemoryForm : Memory.wf sL.mem = true ∧ (match step sL with | .next _ => true | _ => false) = true := by
  decide +kernel

/-! ## Decoding: words put together bit by bit from R21, R32 and the encodings of the home chapters -/

/-- R21, R91, R109, R111: integer and predicate words. -/
theorem test_decode_integer : decodes 0x70C20405 (.iadd ⟨0, 1, 2, 3, 7⟩) = true ∧ decodes 0x90C20061 (.icmp ⟨0, 0, 2, 3, 9⟩) = true ∧
    decodes 0x50001093 (.rdsp ⟨1, 4, 0, 0, 5⟩) = true ∧ decodes 0xFFC61075 (.iaddi ⟨0, 4, 6, 0x3FF⟩) = true := by
  decide +kernel
/-- R32, R33: halfwords, and the length bit. -/
theorem test_decode_short : decodes 0x0000 (.mov16 ⟨0, 0, 0⟩) = true ∧ decodes 0xFA46 (.iadd16 ⟨1, 9, 31⟩) = true ∧ lengthOf 0xFA46 = 2 ∧
    lengthOf 0x70C20405 = 4 := by
  decide +kernel
/-- R37, R141, R145: float, special function and limb words. -/
theorem test_decode_float_limb : decodes 0x8EB7D903 (.fadd ⟨1, 54, 55, 58, 8⟩) = true ∧
    decodes 0x30C205C9 (.ladd ⟨0, 1, 2, 3, 3⟩) = true ∧ decodes 0x70061129 (.frcp ⟨0, 4, 6, 0, 7⟩) = true := by
  decide +kernel
/-- R48, R26: a load of the worked example, and a guard of 15. -/
theorem test_decode_memory : decodes 0x70841A11 (.ldB32 ⟨0, 6, 4, 2, 7⟩) = true ∧
    (match decodeWord 0xF0841A11 with | .ok _ => false | .error e => decide (e = .illRes)) = true := by
  decide +kernel
/-- R30, R85, R29: branches, a trail, fences. -/
theorem test_decode_control : decodes 0xAFFFE6A1 (.br ⟨0, 0x3FFF9, 10⟩) = true ∧ decodes 0x1FFFC2A3 (.br ⟨1, 0x3FFF0, 1⟩) = true ∧
    decodes 0x0E3812CF (.trail ⟨1, 4, 56, 56, 0⟩) = true ∧ decodes 0x70400275 (.fence ⟨0, 0, 0, 1, 7⟩) = true ∧
    decodes 0x70C00275 (.fence ⟨0, 0, 0, 3, 7⟩) = true := by
  decide +kernel
/-- Forage, copy and barrier, matrix, comb and system words. -/
theorem test_decode_units : decodes 0x0000028B (.home ⟨1, 0, 0, 0, 0⟩) = true ∧ decodes 0x02CA0319 (.barInit ⟨0, 0, 10, 11, 0⟩) = true ∧
    decodes 0x0000035F (.mwait ⟨1, 0, 0, 0, 0⟩) = true ∧ decodes 0x00C20741 (.obres ⟨0, 1, 2, 3, 0⟩) = true ∧
    decodes 0x76100B49 (.mma ⟨0, 2, 16, 24, 7⟩) = true ∧ decodes 0x000003AD (.ctblSwap ⟨0, 0, 0, 0, 0⟩) = true ∧
    decodes 0x41C613A5 (.cattn ⟨0, 4, 6, 7, 4⟩) = true ∧ decodes 0x01440BC1 (.nodeSpawn ⟨0, 2, 4, 5, 0⟩) = true ∧
    decodes 0x002313D1 (.trapi ⟨0, 4, 35, 0, 0⟩) = true := by
  decide +kernel

/-- The bytes of a word decode to the same, and to nothing when they are too few (R18, R21). -/
theorem test_decode_bytes : (match decodeBytes [0x05, 0x04, 0xC2, 0x70, 9] with
      | .ok (i, r) => decide (i = .iadd ⟨0, 1, 2, 3, 7⟩ ∧ r = [9])
      | .error _ => false) = true ∧
    (match decodeBytes [0x05, 0x04, 0xC2] with | .ok _ => false | .error _ => true) = true := by
  decide +kernel

/-! ## Well-formedness: one ill-formed term for each check, which the check refuses -/

/-- A field the row fixes at 0 (R37), and a required S bit (R85, R255, R298). -/
theorem test_wf_fixed_bits : [Instr.mov ⟨0, 4, 6, 1, 7⟩, .popc ⟨0, 4, 6, 1, 7⟩, .icmp ⟨0, 8, 2, 3, 0⟩, .shli ⟨0, 4, 6, 32⟩, .rti ⟨0, 1, 0, 0, 0⟩,
    .csync ⟨0, 0, 0, 0, 1⟩, .trail ⟨0, 4, 56, 56, 0⟩, .mwait ⟨0, 0, 0, 0, 0⟩, .nodeSpawn ⟨0, 2, 4, 5, 1⟩].all (fun i => !i.wf) = true := by
  decide +kernel
/-- A guard of 15 (R26). -/
theorem test_wf_guard : [Instr.iadd ⟨0, 1, 2, 3, 15⟩, .fadd ⟨0, 1, 2, 3, 15⟩, .ladd ⟨0, 1, 2, 3, 15⟩, .ldB32 ⟨0, 6, 4, 2, 15⟩, .br ⟨0, 0, 15⟩,
    .fence ⟨0, 0, 0, 1, 15⟩].all (fun i => !i.wf) = true := by
  decide +kernel
/-- A window name where none may stand (R22): a destination, a pair, an address. -/
theorem test_wf_window : [Instr.iadd ⟨0, 56, 2, 3, 7⟩, .iaddI64 ⟨0, 4, 56, 6, 7⟩, .ldB32 ⟨0, 6, 56, 2, 7⟩, .movi ⟨0, 63, 0⟩, .trail ⟨1, 56, 56, 56, 0⟩, .trail ⟨1, 4, 57, 56, 0⟩,
    .vote ⟨0, 56, 0, 0, 3⟩].all (fun i => !i.wf) = true := by
  decide +kernel
/-- A value its field may not have (R39 and the home chapters), one for each rule. -/
theorem test_wf_fields : [Instr.icmp ⟨0, 0, 2, 3, 10⟩, .icmp ⟨0, 7, 2, 3, 0⟩, .icmpI64 ⟨0, 0, 2, 4, 10⟩, .fcmp ⟨0, 0, 2, 3, 8⟩, .isel ⟨0, 4, 2, 3, 15⟩,
    .leaTp ⟨0, 4, 6, 1, 0⟩, .rdsp ⟨0, 4, 0, 0, 9⟩, .pset ⟨0, 7, 0, 0, 0⟩, .pset ⟨0, 0, 0, 1, 4⟩, .pset ⟨0, 0, 1, 0, 6⟩, .unify ⟨0, 7, 6, 0, 0⟩,
    .lbind ⟨0, 0, 0, 0, 0⟩, .lbind ⟨0, 0, 0, 0, 6⟩, .lspill ⟨0, 4, 0, 0, 3⟩, .lcmp ⟨0, 0, 2, 3, 10⟩, .lstat ⟨0, 4, 6, 0, 0⟩, .ldAcqB32 ⟨0, 6, 4, 0, 7⟩,
    .stRelB64 ⟨0, 6, 4, 0, 7⟩, .atomAdd ⟨0, 6, 4, 1, 7⟩, .atomFadd ⟨0, 6, 4, 3, 7⟩, .cache ⟨0, 5, 4, 0, 7⟩, .fence ⟨0, 0, 0, 0, 7⟩, .xfence ⟨0, 1, 1, 0, 0⟩,
    .forage ⟨0, 50, 4, 7, 7⟩, .forageTry ⟨0, 4, 4, 56, 7⟩, .fstat ⟨0, 4, 0, 0, 8⟩, .vote ⟨0, 0, 0, 0, 6⟩, .barTest ⟨0, 0, 7, 3, 0⟩, .mma ⟨0, 0, 16, 24, 4⟩,
    .mzero ⟨0, 8, 0, 0, 0⟩, .mld ⟨0, 0, 4, 6, 5⟩, .cmac ⟨0, 0, 2, 3, 3⟩, .clut ⟨0, 0, 0, 0, 3⟩, .cattn ⟨0, 0, 4, 6, 12⟩, .cattn ⟨0, 14, 4, 6, 4⟩,
    .grp ⟨0, 4, 0, 0, 7⟩, .grp ⟨0, 4, 0, 1, 0⟩].all (fun i => !i.wf) = true := by
  decide +kernel
/-- Well-formed neighbours of the terms above. -/
theorem test_wf_accepts : [Instr.mov ⟨0, 4, 6, 0, 7⟩, .icmp ⟨0, 6, 2, 3, 9⟩, .iadd ⟨0, 55, 63, 63, 14⟩, .trail ⟨1, 55, 56, 56, 0⟩, .pset ⟨0, 6, 0, 0, 7⟩,
    .fence ⟨0, 0, 0, 1, 14⟩, .mwait ⟨1, 0, 0, 0, 0⟩, .lbind ⟨0, 0, 0, 0, 5⟩, .dispHalving, .unassignedOpcode 0x3FD].all Instr.wf = true := by
  decide +kernel
theorem test_wf_unassigned : [Instr.unassignedOpcode 0x3FC, .unassignedOpcode 0x005].all (fun i => !i.wf) = true := by
  decide +kernel

/-! ## One step: what an instruction leaves, by hand from its rule -/

/-- `sL` at the word w, with registers as given, after one step; what f reads of its strand. -/
def ran {α : Type} (w : Nat) (rs : List (Nat × Word)) (f : Strand → α) : Option α :=
  let s := State.reset.withFetchWord 32 w
  match step (turn s (fun st => { st with vregs := rs.foldl (fun v r => v.set r.1 (.u r.2)) st.vregs })) with
  | .next t => (t.strand 1).map f
  | _ => none

/-- R106: `iadd` wraps. -/
theorem test_iadd_wraps : ran 0x70C20405 [(2, 0xFFFFFFFF), (3, 2)] (fun st => st.reg32 31 1) = some 1 := by decide +kernel
/-- R106: `isub` of a register from itself, into itself. -/
theorem test_isub_self : ran 0x71041009 [(4, 7)] (fun st => st.reg32 0 4) = some 0 := by decide +kernel
/-- R106: the signed high product of -1 and -1 is 0. -/
theorem test_imulh_signed : ran 0x70C20411 [(2, 0xFFFFFFFF), (3, 0xFFFFFFFF)] (fun st => st.reg32 5 1) = some 0 := by decide +kernel
/-- R109: imm10 is sign extended. -/
theorem test_iaddi_sign : ran 0xFFC61075 [(6, 0)] (fun st => st.reg32 9 4) = some 0xFFFFFFFF := by decide +kernel
/-- R141: 1.0 + 2.0 = 3.0. -/
theorem test_fadd : ran 0x70C20501 [(2, 0x3F800000), (3, 0x40000000)] (fun st => st.reg32 0 1) = some 0x40400000 := by decide +kernel
/-- R111: 0xFFFFFFFF is less than 1 as a signed number. -/
theorem test_icmp_signed : ran 0x20C20061 [(2, 0xFFFFFFFF), (3, 1)] (fun st => (st.lane 3).preds.getLsbD 0) = some true := by decide +kernel
/-- R30: offset18 = -7 goes back 14 bytes from the branch itself. -/
theorem test_br_target : ran 0x7FFFE6A1 [] (fun st => (st.lane 0).pc) = some 0x10072 := by decide +kernel
/-- R335: `trapi 0x123` raises code 0x31 in every lane, with the number in DETAIL and RESUME at PC + 4. -/
theorem test_trapi : ran 0x002313D1 [] (fun st => (List.range 32).all (fun k => decide ((st.lane k).st = .fault))) = some true ∧
    (match step (State.reset.withFetchWord 32 0x002313D1) with
      | .next t => (t.func 0).fqWait.map (fun (r : FaultRec) => (r.code, r.detail.toNat, r.pc.toNat, r.resume.toNat))
      | _ => []).head? = some (0x31, 0x123, 0x10080, 0x10084) := by decide +kernel

end Sys2Proof.Tests
end

/-! PROOF. The issue of the matrix instructions (spec 10_matrix_engine.md): the effect of each in a strand that is ready for
it, case by case, and O38. -/
namespace Sys2Proof.Machine

/-! ## The issue form of a three-register word -/

/-- The issue form keeps the fields of its word, whatever the opcode's row says. -/
theorem rrr_f (op : Nat) (f : Rrr) (h : op < 256) : (rrr op f).f = f := by
  have hw : (rrr op f).f = rrrOfWord (rrrWord op f) := by unfold rrr hdOf; split <;> rfl
  rw [hw, rrrOfWord_rrrWord op f h]

theorem rrr_row_op (op : Nat) (f : Rrr) (h : (opRow op).isSome = true) : (rrr op f).row.op = op := by
  obtain ⟨row, hrow⟩ := Option.isSome_iff_exists.1 h
  have hop : row.op = op := by simpa using List.find?_some hrow
  simpa [rrr, hdOf_eq op _ row hrow] using hop

/-! ## Tables and strands under updates -/

@[simp] theorem State.core_setCore (s : State) (n : Nat) (g : Core → Core) : (s.setCore n g).core n = g (s.core n) := by
  simp [State.core, tgetD]

theorem State.cx_updCx (s : State) (i j : Nat) (g : Cx → Cx) :
    (s.updCx i g).cx j = if j = i then (s.cx j).map g else s.cx j := by
  unfold State.updCx State.cx
  cases hi : tget s.cxs i with
  | none => split <;> simp_all
  | some c =>
    by_cases hj : j = i
    · subst hj; simp [hi]
    · simp [tget_tset_ne _ _ _ _ hj, hj]

theorem tget_map_snd {α β : Type} (g : α → β) (t : Tab α) (n : Nat) :
    tget (t.map (fun e => (e.1, g e.2))) n = (tget t n).map g := by
  induction t with
  | nil => rfl
  | cons e t ih =>
    by_cases h : e.1 = n
    · simp [tget, h]
    · simp [tget, h, ih]

/-- A strand after `unstallAll`. -/
def State.retried (s : State) (k : Stall) (near : Strand → Bool) (st : Strand) : Strand :=
  if st.stall == some k && near st && !s.stoppedForSave st then { st with stall := none } else st

theorem State.unstallAll_strands (s : State) (k : Stall) (near : Strand → Bool) :
    (s.unstallAll k near).strands = s.strands.map (fun e => (e.1, s.retried k near e.2)) := by
  refine List.map_congr_left fun e _ => ?_
  unfold State.retried
  split <;> rfl

/-- Letting stalled strands try again changes no strand that is not stalled. -/
theorem State.strand_unstallAll_of_unstalled (s : State) (k : Stall) (near : Strand → Bool) (i : Nat) (st : Strand)
    (hs : s.strand i = some st) (hst : st.stall = none) : (s.unstallAll k near).strand i = some st := by
  rw [State.strand, State.unstallAll_strands, tget_map_snd, show tget s.strands i = some st from hs]
  simp [State.retried, hst]

/-! ## Writes by the hardware leave threads and cores -/

@[simp] theorem State.undefine_strands (s : State) (a n : Nat) : (s.undefine a n).strands = s.strands := by
  unfold State.undefine State.homeWrite; dsimp only; split <;> rfl
@[simp] theorem State.undefine_cores (s : State) (a n : Nat) : (s.undefine a n).cores = s.cores := by
  unfold State.undefine State.homeWrite; dsimp only; split <;> rfl

/-! ## When a write needs no shared block (R102) -/

/-- An instruction that leaves its strand as it was takes no block. -/
theorem State.lacksBlock_of_strand_eq {s u : State} {i : Nat} (h : u.strand i = s.strand i) : s.lacksBlock u i = false := by
  unfold State.lacksBlock
  rw [h]
  cases s.strand i with
  | none => rfl
  | some a => simp

theorem State.poolPart_eq (s : State) (core : Nat) (p : Nat × Strand) : s.poolPart core p =
    if p.2.ctx = .L then ((s.cx p.2.cx).map fun c => if c.resident && c.core = core then max c.hdr.gmax p.2.blocks else 0).getD 0
    else 0 := by
  unfold State.poolPart
  cases p.2.ctx <;> cases s.cx p.2.cx <;> simp

/-- A change of a context that keeps its core, header and residence changes no count of blocks. -/
theorem State.lacksBlock_updCx (s u : State) (i j : Nat) (g : Cx → Cx)
    (hg : ∀ c, (g c).core = c.core ∧ (g c).hdr = c.hdr ∧ (g c).resident = c.resident) :
    s.lacksBlock (u.updCx j g) i = s.lacksBlock u i := by
  have hcx : ∀ {α : Type} (p : Cx → α), (∀ c, p (g c) = p c) → ∀ n, ((u.updCx j g).cx n).map p = (u.cx n).map p := by
    intro α p hp n
    rw [State.cx_updCx]
    split
    · cases u.cx n <;> simp [hp]
    · rfl
  have hhdr : ∀ b, (u.updCx j g).hdrOf b = u.hdrOf b := fun b => by
    simp only [State.hdrOf, hcx Cx.hdr fun c => (hg c).2.1]
  have hhome : ∀ b, (u.updCx j g).homeUnit b = u.homeUnit b := fun b => by
    simp only [State.homeUnit, hcx Cx.core fun c => (hg c).1]
  have hpart : ∀ core, (u.updCx j g).poolPart core = u.poolPart core := fun core => funext fun p => by
    rw [State.poolPart_eq, State.poolPart_eq, hcx _ fun c => by simp only [hg]]
  have huse : ∀ core, (u.updCx j g).poolUse core = u.poolUse core := fun core => by
    simp only [State.poolUse_eq, State.updCx_strands, hpart]
  simp only [State.lacksBlock, State.strand, State.updCx_strands, hhdr, hhome, huse]

/-! ## Issue of a ready strand -/

/-- A strand that may issue stands at no stall. -/
theorem State.Ready.stall {s : State} {st : Strand} {h : Hd} (r : s.Ready st h) : st.stall = none := by
  have := r.issues
  simp only [State.canIssue, Bool.and_eq_true, Option.isNone_iff_eq_none] at this
  tauto

theorem State.Ready.group_ne {s : State} {st : Strand} {h : Hd} (r : s.Ready st h) : st.group ≠ 0 := by
  have := r.issues
  simp only [State.canIssue, Bool.and_eq_true, bne_iff_ne] at this
  tauto

section
variable {s : State} {st : Strand} {h : Hd} (r : s.Ready st h)
include r

theorem State.Ready.windows_here : (h.row.winReads h.f).any (fun n => decide (st.runLen < n)) = false := by
  simpa [List.any_eq_false, List.all_eq_true] using r.window

theorem State.Ready.uncovered (p : Pend) (hp : p ∈ st.pends) :
    p.trailed = false ∨ p.covers (h.row.regs st.ctx.wide h.f ++ h.more) = false := by
  simpa using List.all_eq_true.1 r.deferred p hp

/-- No deferred entry with a fault of the group covers a register of the instruction (R71). -/
theorem State.Ready.no_faulted_entry :
    st.pends.find? (fun p => p.trailed && p.covers (h.row.regs st.ctx.wide h.f ++ h.more) &&
      p.flts.any (fun q => (lanesOf st.group).any q.parks)) = none :=
  List.find?_eq_none.2 fun p hp => by rcases r.uncovered p hp with hp | hp <;> simp [hp]

/-- No deferred entry that has still to land covers a register of the instruction (R68). -/
theorem State.Ready.no_open_entry :
    st.pends.any (fun p => p.trailed && !p.caps.isEmpty && p.covers (h.row.regs st.ctx.wide h.f ++ h.more)) = false :=
  List.any_eq_false.2 fun p hp => by rcases r.uncovered p hp with hp | hp <;> simp [hp]

/-- A forager may read every register that the instruction reads (R263). -/
theorem State.Ready.no_unreadable :
    (st.fg.bind fun g => (h.row.reads st.ctx.wide h.f).find? fun q => (s.iss st h).g != 0 && !g.reads q) = none := by
  have hall := r.readable
  cases hf : st.fg with
  | none => rfl
  | some g =>
    simp only [hf, Option.all_some, Bool.or_eq_true, beq_iff_eq, List.all_eq_true] at hall
    refine List.find?_eq_none.2 fun q hq => ?_
    rcases hall with hg | hg
    · simp [hg]
    · simp [hg q hq]

/-- In a ready strand an instruction whose effect is to wait stalls its group before it performs. -/
theorem State.Ready.issue_stall (body : State → Iss → Act) (k : Stall) (hb : body s (s.iss st h) = .stall k) :
    s.issue h body = s.setStall s.cur k := by
  have hread := r.no_unreadable
  dsimp only [State.iss] at hb hread
  simp only [State.issue, r.cur, r.issues, Bool.not_true, r.decodes, r.run, r.windows_here, r.no_faulted_entry,
    r.no_open_entry, hread, hb]
  rfl

end

/-- A ready instruction that leaves its strand as it was completes with its result. -/
theorem State.Ready.issue_of_strand_eq {s : State} {st : Strand} {h : Hd} (r : s.Ready st h) (body : State → Iss → Act) (o : Out)
    (hb : body s (s.iss st h) = .done o) (hu : o.s.strand s.cur = s.strand s.cur) : s.issue h body = s.after st h o :=
  r.issue body o hb (State.lacksBlock_of_strand_eq hu)

/-- A ready instruction that changes its own strand completes with that change, whatever it writes. -/
theorem State.Ready.issue_putStrand {s : State} {st : Strand} {h : Hd} (r : s.Ready st h) (body : State → Iss → Act) (b : Strand)
    (dst : Dst) (ends : Bool) (hb : body s (s.iss st h) = .done ⟨s.putStrand s.cur b, dst, [], ends⟩) (hctx : b.ctx = st.ctx)
    (hcx : b.cx = st.cx) : s.issue h body = s.after st h ⟨s.putStrand s.cur b, dst, [], ends⟩ :=
  r.issue body _ hb (State.Room.lacks r.room r.cur rfl rfl hctx hcx)

/-- A precise trap changes the strand that takes it alone (R69). -/
theorem State.trapLanes_eq_putStrand (s : State) (i : Nat) (m : Word) (code : Nat) (pc : Va) (len detail : Nat) (addr : Nat → W64)
    (st : Strand) (hs : s.strand i = some st) :
    ∃ b, s.trapLanes i m code pc len detail addr = s.putStrand i b ∧ b.ctx = st.ctx ∧ b.cx = st.cx :=
  ⟨_, State.updStrand_eq _ _ _ _ hs, rfl, rfl⟩

/-- A ready instruction that raises OB_RES completes with that trap in every lane of its group (R284). -/
theorem State.Ready.issue_obTrap {s : State} {st : Strand} {h : Hd} (r : s.Ready st h) (body : State → Iss → Act) (cause : Nat)
    (hb : body s (s.iss st h) = obTrap s (s.iss st h) cause) :
    s.issue h body = s.after st h ⟨s.trapLanes s.cur st.group 0x21 (s.iss st h).pc 4 cause, .nothing, [], false⟩ := by
  obtain ⟨b, hput, hctx, hcx⟩ :=
    s.trapLanes_eq_putStrand s.cur st.group 0x21 (s.iss st h).pc 4 cause (fun _ => 0) st r.cur
  rw [hput]
  refine r.issue_putStrand body b .nothing false ?_ hctx hcx
  rw [hb, ← hput]
  rfl

/-! ## Commands of the holder (R281, R289) -/

theorem asHolder_of_holder {s : State} {x : Iss} {c : Cx} (body : Cx → Core → Act) (hc : s.cx x.st.cx = some c)
    (hh : (s.core c.core).holder = some x.st.cx) : asHolder s x body = body c (s.core c.core) := by
  simp [asHolder, hc, hh]

theorem asHolder_of_not_holder {s : State} {x : Iss} {c : Cx} (body : Cx → Core → Act) (hc : s.cx x.st.cx = some c)
    (hh : (s.core c.core).holder ≠ some x.st.cx) : asHolder s x body = obTrap s x 0 := by
  simp [asHolder, hc, hh]

/-- The state with one more command at the end of a core's engine queue. -/
def State.enqueue (s : State) (core : Nat) (m : MCmd) : State :=
  { s.setCore core (fun y => { y with mqueue := y.mqueue ++ [m] }) with nextId := s.nextId + 1 }

theorem State.mqueuePut_of_room {s : State} {x : Iss} {core : Nat} (m : MCmd) (hlen : (s.core core).mqueue.length < 8)
    (hturn : s.queuesBehind x.i .matrix (fun t => s.homeUnit t == core) = false) :
    s.mqueuePut x core m = .done { s := s.enqueue core m } := by
  simp [State.mqueuePut, State.enqueue, Nat.not_le.2 hlen, hturn]

/-- A command of instruction `op` with fields `f`, issued by the current strand and not begun: what every command of
the holder captures, whatever its operands are. -/
def MCmd.IssuedBy (m : MCmd) (s : State) (st : Strand) (op : Nat) (f : Rrr) : Prop :=
  m.op = op ∧ m.d = f.d.toNat ∧ m.x = f.x.toNat ∧ m.cx = st.cx ∧ m.strand = s.cur ∧ m.lane = lowest st.group ∧ m.step = 0 ∧
    m.status = none ∧ m.ord = (st.lane (lowest st.group)).ord

theorem newMCmd_issuedBy (s : State) (st : Strand) (op : Nat) (f : Rrr) (ho : op < 256) (hrow : (opRow op).isSome = true) :
    (newMCmd s (s.iss st (rrr op f))).IssuedBy s st op f :=
  ⟨rrr_row_op op f hrow, by simp [newMCmd, State.iss, rrr_f op f ho], by simp [newMCmd, State.iss, rrr_f op f ho],
    rfl, rfl, rfl, rfl, rfl, rfl⟩

/-- Where the queue has room and no group stands before it there, a ready instruction `i` puts one command that
satisfies `q` at the end of the engine's queue, and does nothing else. -/
def State.Enqueues (s : State) (st : Strand) (core : Nat) (i : Instr) (op : Nat) (f : Rrr) (q : MCmd → Prop) : Prop :=
  s.Ready st (rrr op f) → (s.core core).mqueue.length < 8 → s.queuesBehind s.cur .matrix (fun t => s.homeUnit t == core) = false →
    ∃ m : MCmd, m.op = op ∧ m.d = f.d.toNat ∧ m.x = f.x.toNat ∧ m.cx = st.cx ∧ m.strand = s.cur ∧ m.lane = lowest st.group ∧
      m.step = 0 ∧ m.status = none ∧ m.ord = (st.lane (lowest st.group)).ord ∧ q m ∧
      s.Does st i (rrr op f) ⟨s.enqueue core m, .nothing, [], false⟩

theorem State.enqueues_of_mqueuePut {s : State} {st : Strand} {core : Nat} {i : Instr} {op : Nat} {f : Rrr} {q : MCmd → Prop}
    (body : State → Iss → Act) (m : MCmd) (hexec : exec i s = .next (s.issue (rrr op f) body))
    (hbody : body s (s.iss st (rrr op f)) = s.mqueuePut (s.iss st (rrr op f)) core m) (hm : m.IssuedBy s st op f) (hq : q m) :
    s.Enqueues st core i op f q := by
  intro r hlen hturn
  obtain ⟨hop, hd, hx, hcx, hstrand, hlane, hstep, hstatus, hord⟩ := hm
  refine ⟨m, hop, hd, hx, hcx, hstrand, hlane, hstep, hstatus, hord, hq, ?_⟩
  rw [State.Does, hexec, r.issue_of_strand_eq body _ (hbody.trans (State.mqueuePut_of_room m hlen hturn)) rfl]

/-- In a ready strand instruction `i` raises OB_RES with a cause in every lane of the group (R284). -/
def State.RaisesObRes (s : State) (st : Strand) (i : Instr) (op : Nat) (f : Rrr) (cause : Nat) : Prop :=
  s.Ready st (rrr op f) →
    s.Does st i (rrr op f) ⟨s.trapLanes s.cur st.group 0x21 (s.iss st (rrr op f)).pc 4 cause, .nothing, [], false⟩

theorem State.raisesObRes_of_obTrap {s : State} {st : Strand} {i : Instr} {op : Nat} {f : Rrr} {cause : Nat}
    (body : State → Iss → Act) (hexec : exec i s = .next (s.issue (rrr op f) body))
    (hbody : body s (s.iss st (rrr op f)) = obTrap s (s.iss st (rrr op f)) cause) : s.RaisesObRes st i op f cause := by
  intro r
  rw [State.Does, hexec, r.issue_obTrap body cause hbody]

/-! ## `obres` (R280, R282) -/

/-- The range that an `obres` asks for: its attribute word, offset and length, read in the group's lowest lane. -/
def Strand.asksRange (st : Strand) (f : Rrr) : Resv :=
  let k := lowest st.group
  let attr := (st.reg32 k f.d.toNat).toNat
  ⟨attr % 256, attr / 65536, (st.src k f.a).toNat, (st.src k f.b).toNat⟩

/-- The first check of R282 that an `obres` fails, if any. -/
def Core.refuses (y : Core) (c : Cx) (st : Strand) (f : Rrr) : Option Nat :=
  resvCause y.resv c.hdr.sram f.x.toNat (st.reg32 (lowest st.group) f.d.toNat).toNat (st.asksRange f).off (st.asksRange f).len

/-- The state in which a new holding of a core's engine begins: its accumulators and scale memory are undefined (R280). -/
def State.beginHolding (s : State) (core : Nat) : State :=
  (s.undefine (accLoc core 0 0 0) 262144).undefine (scaleLoc core 0) 65536

@[simp] theorem State.beginHolding_strands (s : State) (core : Nat) : (s.beginHolding core).strands = s.strands := by
  simp [State.beginHolding]
@[simp] theorem State.beginHolding_core (s : State) (core n : Nat) : (s.beginHolding core).core n = s.core n := by
  simp [State.beginHolding, State.core]

/-- Context `cx` holds a core's engine with range `rv` under number `n`. -/
def State.reserve (s : State) (core cx n : Nat) (rv : Resv) : State :=
  s.setCore core (fun y => { y with holder := some cx, resv := tset y.resv n rv })

/-- The group may perform its `obres`: its context holds the engine, or nobody does and no group stands before it. -/
def State.ObresTurn (s : State) (st : Strand) (c : Cx) : Prop :=
  (s.core c.core).holder = some st.cx ∨
    (s.core c.core).holder = none ∧ s.queuesBehind s.cur .holder (fun t => s.homeUnit t == c.core) = false

theorem bits_attr_soff (v : Word) : bits v.toNat 31 16 = v.toNat / 65536 := by
  have := v.isLt
  simp only [bits]
  omega

theorem State.ObresTurn.goes {s : State} {st : Strand} {c : Cx} (ht : s.ObresTurn st c) :
    ((s.core c.core).holder != some st.cx && (!((s.core c.core).holder == none) ||
      s.queuesBehind s.cur .holder (fun t => s.homeUnit t == c.core))) = false := by
  rcases ht with hh | ⟨hh, hq⟩
  · simp [hh]
  · simp [hh, hq]

theorem obresBody_of_refused {s : State} {st : Strand} {c : Cx} {f : Rrr} {cause : Nat} (hc : s.cx st.cx = some c)
    (ht : s.ObresTurn st c) (hr : (s.core c.core).refuses c st f = some cause) :
    obresBody s (s.iss st (rrr 0xD0 f)) = obTrap s (s.iss st (rrr 0xD0 f)) cause := by
  dsimp only [Core.refuses, Strand.asksRange] at hr
  simp only [obresBody, State.iss, rrr_f 0xD0 f (by decide), hc, ht.goes, hr]
  rfl

theorem obresBody_of_accepted {s : State} {st : Strand} {c : Cx} {f : Rrr} (hc : s.cx st.cx = some c)
    (ht : s.ObresTurn st c) (hr : (s.core c.core).refuses c st f = none) :
    obresBody s (s.iss st (rrr 0xD0 f)) = .done { s :=
      (if (s.core c.core).holder == none then s.beginHolding c.core else s).reserve c.core st.cx f.x.toNat (st.asksRange f) } := by
  dsimp only [Core.refuses, Strand.asksRange] at hr
  simp only [obresBody, State.iss, rrr_f 0xD0 f (by decide), hc, ht.goes, hr, bits_attr_soff]
  rfl

theorem obres_refused (s : State) (st : Strand) (c : Cx) (f : Rrr) (cause : Nat) (hc : s.cx st.cx = some c)
    (ht : s.ObresTurn st c) (hr : (s.core c.core).refuses c st f = some cause) : s.RaisesObRes st (.obres f) 0xD0 f cause :=
  State.raisesObRes_of_obTrap obresBody rfl (obresBody_of_refused hc ht hr)

/-- An `obres` of the holder adds its record and changes nothing else (R282). -/
theorem obres_of_holder (s : State) (st : Strand) (c : Cx) (f : Rrr) (hc : s.cx st.cx = some c)
    (hh : (s.core c.core).holder = some st.cx) (hr : (s.core c.core).refuses c st f = none) (r : s.Ready st (rrr 0xD0 f)) :
    s.Does st (.obres f) (rrr 0xD0 f) ⟨s.reserve c.core st.cx f.x.toNat (st.asksRange f), .nothing, [], false⟩ := by
  have hbody := obresBody_of_accepted hc (.inl hh) hr
  rw [hh] at hbody
  exact congrArg _ (r.issue_of_strand_eq obresBody _ hbody rfl)

/-- An `obres` of an engine that nobody holds makes its context the holder, with its record alone added (R280). -/
theorem obres_of_free (s : State) (st : Strand) (c : Cx) (f : Rrr) (hc : s.cx st.cx = some c)
    (hh : (s.core c.core).holder = none) (hq : s.queuesBehind s.cur .holder (fun t => s.homeUnit t == c.core) = false)
    (hr : (s.core c.core).refuses c st f = none) (r : s.Ready st (rrr 0xD0 f)) :
    ∃ u : State, s.Does st (.obres f) (rrr 0xD0 f) ⟨u, .nothing, [], false⟩ ∧ (u.core c.core).holder = some st.cx ∧
      (u.core c.core).resv = tset (s.core c.core).resv f.x.toNat (st.asksRange f) ∧ u.strands = s.strands := by
  have hbody := obresBody_of_accepted hc (.inr ⟨hh, hq⟩) hr
  rw [hh] at hbody
  have hstrands : ((s.beginHolding c.core).reserve c.core st.cx f.x.toNat (st.asksRange f)).strands = s.strands := by
    simp [State.reserve]
  refine ⟨_, congrArg _ (r.issue_of_strand_eq obresBody _ hbody ?_), ?_, ?_, hstrands⟩
  · exact congrArg (tget · s.cur) hstrands
  · simp [State.reserve]
  · simp [State.reserve]

/-! ## `obrel` (R283) -/

/-- An `obrel` waits: a command outstanding reads the range, or a group of its context stands before it. -/
def State.obrelWaits (s : State) (st : Strand) (c : Cx) (r : Resv) : Bool :=
  (s.core c.core).mqueue.any (s.readsRange c r) ||
    s.queuesBehind s.cur .holder (fun t => t.cx == st.cx && (st.waits == some .holder || t.stall.isNone))

/-- A core's engine left with the records `rs`: with no record and no command its holding ends (R280). -/
def State.keepRecords (s : State) (core : Nat) (rs : Tab Resv) : State :=
  let t := s.setCore core (fun y => { y with resv := rs })
  if rs.isEmpty && (s.core core).mqueue.isEmpty then t.endHolding core else t

theorem obrelBody_of_absent {s : State} {st : Strand} {c : Cx} {f : Rrr} (hc : s.cx st.cx = some c)
    (hr : tget (s.core c.core).resv f.x.toNat = none) :
    obrelBody s (s.iss st (rrr 0xD1 f)) = obTrap s (s.iss st (rrr 0xD1 f)) 1 := by
  simp only [obrelBody, State.iss, rrr_f 0xD1 f (by decide), hc, hr, ite_self]

theorem obrelBody_of_waits {s : State} {st : Strand} {c : Cx} {f : Rrr} {r : Resv} (hc : s.cx st.cx = some c)
    (hh : (s.core c.core).holder = some st.cx) (hr : tget (s.core c.core).resv f.x.toNat = some r)
    (hw : s.obrelWaits st c r = true) : obrelBody s (s.iss st (rrr 0xD1 f)) = .stall .holder := by
  dsimp only [State.obrelWaits] at hw
  simp only [obrelBody, State.iss, rrr_f 0xD1 f (by decide), hc, hh, beq_self_eq_true, if_true, hr, hw]

theorem obrelBody_of_released {s : State} {st : Strand} {c : Cx} {f : Rrr} {r : Resv} (hc : s.cx st.cx = some c)
    (hh : (s.core c.core).holder = some st.cx) (hr : tget (s.core c.core).resv f.x.toNat = some r)
    (hw : s.obrelWaits st c r = false) :
    obrelBody s (s.iss st (rrr 0xD1 f)) = .done { s := s.keepRecords c.core (tdel (s.core c.core).resv f.x.toNat) } := by
  dsimp only [State.obrelWaits] at hw
  simp only [obrelBody, State.iss, rrr_f 0xD1 f (by decide), hc, hh, beq_self_eq_true, if_true, hr, hw]
  rfl

theorem State.keepRecords_sameMemory (s : State) (core : Nat) (rs : Tab Resv) : s.SameMemory (s.keepRecords core rs) := by
  unfold State.keepRecords
  dsimp only
  split <;> exact ⟨fun _ => rfl, rfl, rfl⟩

theorem State.keepRecords_strand (s : State) (core : Nat) (rs : Tab Resv) (i : Nat) (st : Strand) (hs : s.strand i = some st)
    (hst : st.stall = none) : (s.keepRecords core rs).strand i = s.strand i := by
  unfold State.keepRecords
  dsimp only
  split
  · rw [hs]
    exact State.strand_unstallAll_of_unstalled _ _ _ i st hs hst
  · rfl

/-- What a release leaves of the core: its queue as it was, the records `rs`, and a holder unless both are empty. -/
theorem State.keepRecords_core (s : State) (core : Nat) (rs : Tab Resv) :
    (s.keepRecords core rs).core core =
      { s.core core with resv := rs, holder := if rs = [] ∧ (s.core core).mqueue = [] then none else (s.core core).holder } := by
  unfold State.keepRecords
  dsimp only
  split
  · next hempty =>
    have he : rs = [] ∧ (s.core core).mqueue = [] := by simpa using hempty
    have hcore : ∀ (t : State) k near n, (t.unstallAll k near).core n = t.core n := fun _ _ _ _ => rfl
    simp [State.endHolding, hcore, he]
  · next hempty =>
    have he : ¬(rs = [] ∧ (s.core core).mqueue = []) := by simpa using hempty
    simp [he]

theorem obrel_of_absent (s : State) (st : Strand) (c : Cx) (f : Rrr) (hc : s.cx st.cx = some c)
    (hr : tget (s.core c.core).resv f.x.toNat = none) : s.RaisesObRes st (.obrel f) 0xD1 f 1 :=
  State.raisesObRes_of_obTrap obrelBody rfl (obrelBody_of_absent hc hr)

theorem obrel_of_waits (s : State) (st : Strand) (c : Cx) (f : Rrr) (r : Resv) (hc : s.cx st.cx = some c)
    (hh : (s.core c.core).holder = some st.cx) (hr : tget (s.core c.core).resv f.x.toNat = some r)
    (hready : s.Ready st (rrr 0xD1 f)) (hw : s.obrelWaits st c r = true) : exec (.obrel f) s = .next (s.setStall s.cur .holder) :=
  congrArg _ (hready.issue_stall obrelBody .holder (obrelBody_of_waits hc hh hr hw))

/-- An `obrel` that waits for nothing removes its record, and ends the holding that has no record and no command left. -/
theorem obrel_of_released (s : State) (st : Strand) (c : Cx) (f : Rrr) (r : Resv) (hc : s.cx st.cx = some c)
    (hh : (s.core c.core).holder = some st.cx) (hr : tget (s.core c.core).resv f.x.toNat = some r)
    (hready : s.Ready st (rrr 0xD1 f)) (hw : s.obrelWaits st c r = false) :
    ∃ u : State, s.Does st (.obrel f) (rrr 0xD1 f) ⟨u, .nothing, [], false⟩ ∧ s.SameMemory u ∧
      (u.core c.core).mqueue = (s.core c.core).mqueue ∧ (u.core c.core).resv = tdel (s.core c.core).resv f.x.toNat ∧
      ((tdel (s.core c.core).resv f.x.toNat ≠ [] ∨ (s.core c.core).mqueue ≠ []) → (u.core c.core).holder = some st.cx) ∧
      (tdel (s.core c.core).resv f.x.toNat = [] → (s.core c.core).mqueue = [] → (u.core c.core).holder = none) := by
  have hbody := obrelBody_of_released hc hh hr hw
  refine ⟨_, congrArg _ (hready.issue_of_strand_eq obrelBody _ hbody ?_), State.keepRecords_sameMemory _ _ _, ?_⟩
  · exact State.keepRecords_strand _ _ _ _ st hready.cur hready.stall
  · rw [State.keepRecords_core]
    refine ⟨rfl, rfl, fun hkeep => ?_, fun hrs hq => if_pos ⟨hrs, hq⟩⟩
    exact (if_neg (by tauto)).trans hh

/-! ## Commands (R294 to R297) -/

theorem mmaBody_of_not_holder {s : State} {st : Strand} {c : Cx} {f : Rrr} (hc : s.cx st.cx = some c)
    (hctx : st.ctx.wide = false) (hh : (s.core c.core).holder ≠ some st.cx) :
    mmaBody s (s.iss st (rrr 0xD2 f)) = obTrap s (s.iss st (rrr 0xD2 f)) 0 := by
  have hnarrow : (s.iss st (rrr 0xD2 f)).st.ctx.wide = false := hctx
  simp only [mmaBody, hnarrow, Bool.false_and, Bool.false_eq_true, if_false]
  exact asHolder_of_not_holder _ hc hh

/-- A bit of a field, read as a number and as a bit vector. -/
theorem bit_toNat {n : Nat} (v : BitVec n) (i : Nat) : bit v.toNat i = v.getLsbD i := by
  rw [bit, BitVec.getLsbD, Nat.testBit_eq_decide_div_mod_eq]
  rfl

/-- The command of an `mma` with operands `a` and `b`. -/
def mmaCmd (s : State) (x : Iss) (a b : Operand) : MCmd :=
  { newMCmd s x with
    aBase := BitVec.ofNat 64 a.base, aDesc := BitVec.ofNat 64 a.desc, aTile := a.tile, aFmt := a.fmt
    bBase := BitVec.ofNat 64 b.base, bDesc := BitVec.ofNat 64 b.desc, bTile := b.tile, bFmt := b.fmt }

theorem mmaBody_of_operands {s : State} {st : Strand} {c : Cx} {f : Rrr} {a b : Operand} (hc : s.cx st.cx = some c)
    (hh : (s.core c.core).holder = some st.cx)
    (hreg : st.ctx.wide = false ∨ (f.x.getLsbD 0 = false ∧ f.x.getLsbD 1 = false))
    (ha : readOperand (s.iss st (rrr 0xD2 f)) c (s.core c.core).resv f.a (f.x.getLsbD 0) = .inr a)
    (hb : readOperand (s.iss st (rrr 0xD2 f)) c (s.core c.core).resv f.b (f.x.getLsbD 1) = .inr b)
    (hpair : pairCause a b f.d.toNat = none) :
    mmaBody s (s.iss st (rrr 0xD2 f)) =
      s.mqueuePut (s.iss st (rrr 0xD2 f)) c.core (mmaCmd s (s.iss st (rrr 0xD2 f)) a b) := by
  have hf : (s.iss st (rrr 0xD2 f)).h.f = f := rrr_f 0xD2 f (by decide)
  have hctx : ((s.iss st (rrr 0xD2 f)).st.ctx.wide && (f.x.getLsbD 0 || f.x.getLsbD 1)) = false := by
    rcases hreg with hw | ⟨h0, h1⟩
    · exact Bool.and_eq_false_iff.2 (.inl hw)
    · rw [h0, h1, Bool.or_self, Bool.and_false]
  simp only [mmaBody, hf, bit_toNat, hctx, Bool.false_eq_true, if_false]
  rw [asHolder_of_holder _ hc hh]
  simp only [ha, hb, hpair]
  rfl

theorem mma_enqueues (s : State) (st : Strand) (c : Cx) (f : Rrr) (a b : Operand) (hc : s.cx st.cx = some c)
    (hh : (s.core c.core).holder = some st.cx)
    (hreg : st.ctx.wide = false ∨ (f.x.getLsbD 0 = false ∧ f.x.getLsbD 1 = false))
    (ha : readOperand (s.iss st (rrr 0xD2 f)) c (s.core c.core).resv f.a (f.x.getLsbD 0) = .inr a)
    (hb : readOperand (s.iss st (rrr 0xD2 f)) c (s.core c.core).resv f.b (f.x.getLsbD 1) = .inr b)
    (hpair : pairCause a b f.d.toNat = none) :
    s.Enqueues st c.core (.mma f) 0xD2 f (fun m =>
      m.aBase = BitVec.ofNat 64 a.base ∧ m.aDesc = BitVec.ofNat 64 a.desc ∧ m.aTile = a.tile ∧ m.aFmt = a.fmt ∧
      m.bBase = BitVec.ofNat 64 b.base ∧ m.bDesc = BitVec.ofNat 64 b.desc ∧ m.bTile = b.tile ∧ m.bFmt = b.fmt) :=
  State.enqueues_of_mqueuePut mmaBody _ rfl (mmaBody_of_operands hc hh hreg ha hb hpair)
    (newMCmd_issuedBy s st 0xD2 f (by decide) rfl) ⟨rfl, rfl, rfl, rfl, rfl, rfl, rfl, rfl⟩

/-- The pair of an `mconv`'s shape operand that holds P0 and M128 (R295). -/
def Strand.shapePair (st : Strand) (f : Rrr) : W64 := st.pair (lowest st.group) (f.a.toNat + if st.ctx.wide then 1 else 2)

/-- The command of an `mconv` with weights `b`. -/
def convCmd (s : State) (st : Strand) (f : Rrr) (b : Operand) : MCmd :=
  { newMCmd s (s.iss st (rrr 0xD3 f)) with
    aBase := st.pair (lowest st.group) f.a.toNat, aDesc := st.shapePair f
    bBase := BitVec.ofNat 64 b.base, bDesc := BitVec.ofNat 64 b.desc, bFmt := b.fmt }

theorem mconvBody_of_weights {s : State} {st : Strand} {c : Cx} {f : Rrr} {b : Operand} (hc : s.cx st.cx = some c)
    (hh : (s.core c.core).holder = some st.cx) (hres0 : (st.shapePair f).toNat < 2 ^ 33)
    (hb : readOperand (s.iss st (rrr 0xD3 f)) c (s.core c.core).resv f.b false = .inr b)
    (hhalf : ((f.d.getLsbD 2 && (st.shapePair f).getLsbD 32) || (f.d.getLsbD 3 && b.m128)) = false) :
    mconvBody s (s.iss st (rrr 0xD3 f)) = s.mqueuePut (s.iss st (rrr 0xD3 f)) c.core (convCmd s st f b) := by
  have hf : (s.iss st (rrr 0xD3 f)).h.f = f := rrr_f 0xD3 f (by decide)
  have hst : (s.iss st (rrr 0xD3 f)).st = st := rfl
  have hm : (s.iss st (rrr 0xD3 f)).m = st.group := rfl
  have hpm : (if st.ctx.wide then st.pair (lowest st.group) (f.a.toNat + 1) else st.pair (lowest st.group) (f.a.toNat + 2)) =
      st.shapePair f := by
    unfold Strand.shapePair
    split <;> rfl
  have hzero : bits64 (st.shapePair f) 63 33 = 0 := by
    rw [bits64, bits, Nat.div_eq_of_lt hres0, Nat.zero_mod]
  rw [mconvBody, asHolder_of_holder _ hc hh]
  simp only [hf, hst, hm, hpm, hzero, bne_self_eq_false, Bool.false_eq_true, if_false, hb, bit_toNat, hhalf]
  rfl

theorem mconv_enqueues (s : State) (st : Strand) (c : Cx) (f : Rrr) (b : Operand) (hc : s.cx st.cx = some c)
    (hh : (s.core c.core).holder = some st.cx) (hres0 : (st.shapePair f).toNat < 2 ^ 33)
    (hb : readOperand (s.iss st (rrr 0xD3 f)) c (s.core c.core).resv f.b false = .inr b)
    (hhalf : ((f.d.getLsbD 2 && (st.shapePair f).getLsbD 32) || (f.d.getLsbD 3 && b.m128)) = false) :
    s.Enqueues st c.core (.mconv f) 0xD3 f (fun m =>
      m.aBase = st.pair (lowest st.group) f.a.toNat ∧ m.aDesc = st.shapePair f ∧ m.bBase = BitVec.ofNat 64 b.base ∧
      m.bDesc = BitVec.ofNat 64 b.desc ∧ m.bFmt = b.fmt ∧ m.shape = []) :=
  State.enqueues_of_mqueuePut mconvBody _ rfl (mconvBody_of_weights hc hh hres0 hb hhalf)
    (newMCmd_issuedBy s st 0xD3 f (by decide) rfl) ⟨rfl, rfl, rfl, rfl, rfl, rfl⟩

theorem mzero_enqueues (s : State) (st : Strand) (c : Cx) (f : Rrr) (hc : s.cx st.cx = some c)
    (hh : (s.core c.core).holder = some st.cx) : s.Enqueues st c.core (.mzero f) 0xD4 f (fun _ => True) :=
  State.enqueues_of_mqueuePut mzeroBody _ rfl (asHolder_of_holder _ hc hh) (newMCmd_issuedBy s st 0xD4 f (by decide) rfl) trivial

/-- The command of an `mld` or `mst`: its pointer, and its pitch in `aDesc`. -/
def rowsCmd (s : State) (st : Strand) (op : Nat) (f : Rrr) : MCmd :=
  { newMCmd s (s.iss st (rrr op f)) with
    aBase := st.pair (lowest st.group) f.a.toNat, aDesc := (st.src (lowest st.group) f.b).setWidth 64 }

theorem mldstBody_of_aligned {s : State} {st : Strand} {c : Cx} {op : Nat} {f : Rrr} (ho : op < 256) (hc : s.cx st.cx = some c)
    (hh : (s.core c.core).holder = some st.cx) :
    let p := st.pair (lowest st.group) f.a.toNat
    spaceZeros (bits p.toNat 63 60) p.toNat = true → bits p.toNat 63 60 ≤ 2 → p.toNat % 16 = 0 →
      (st.src (lowest st.group) f.b).toNat % 16 = 0 →
      mldstBody s (s.iss st (rrr op f)) = s.mqueuePut (s.iss st (rrr op f)) c.core (rowsCmd s st op f) := by
  intro p hzeros hspace hptr hpitch
  have hf : (s.iss st (rrr op f)).h.f = f := rrr_f op f ho
  have hst : (s.iss st (rrr op f)).st = st := rfl
  have hm : (s.iss st (rrr op f)).m = st.group := rfl
  have hwidth : BitVec.ofNat 64 (st.src (lowest st.group) f.b).toNat = (st.src (lowest st.group) f.b).setWidth 64 := by
    rw [BitVec.ofNat_toNat]
  rw [mldstBody, asHolder_of_holder _ hc hh]
  simp only [hf, hst, hm, hwidth]
  simp only [p] at hzeros hspace hptr
  simp [hzeros, Nat.not_lt.2 hspace, hptr, hpitch, rowsCmd]

theorem mld_mst_enqueue (s : State) (st : Strand) (c : Cx) (f : Rrr) (hc : s.cx st.cx = some c)
    (hh : (s.core c.core).holder = some st.cx) :
    let p := st.pair (lowest st.group) f.a.toNat
    let row (m : MCmd) : Prop := m.aBase = p ∧ m.aDesc = (st.src (lowest st.group) f.b).setWidth 64
    spaceZeros (bits p.toNat 63 60) p.toNat = true → bits p.toNat 63 60 ≤ 2 → p.toNat % 16 = 0 →
      (st.src (lowest st.group) f.b).toNat % 16 = 0 →
      s.Enqueues st c.core (.mld f) 0xD5 f row ∧ s.Enqueues st c.core (.mst f) 0xD6 f row := by
  intro p row hzeros hspace hptr hpitch
  exact ⟨State.enqueues_of_mqueuePut mldstBody _ rfl (mldstBody_of_aligned (by decide) hc hh hzeros hspace hptr hpitch)
      (newMCmd_issuedBy s st 0xD5 f (by decide) rfl) ⟨rfl, rfl⟩,
    State.enqueues_of_mqueuePut mldstBody _ rfl (mldstBody_of_aligned (by decide) hc hh hzeros hspace hptr hpitch)
      (newMCmd_issuedBy s st 0xD6 f (by decide) rfl) ⟨rfl, rfl⟩⟩

/-- A context that does not hold its core's engine raises NOHOLD on each command (R281). -/
theorem commands_of_not_holder (s : State) (st : Strand) (c : Cx) (f : Rrr) (hc : s.cx st.cx = some c)
    (hh : (s.core c.core).holder ≠ some st.cx) :
    (st.ctx.wide = false → s.RaisesObRes st (.mma f) 0xD2 f 0) ∧ s.RaisesObRes st (.mconv f) 0xD3 f 0 ∧
      s.RaisesObRes st (.mzero f) 0xD4 f 0 ∧ s.RaisesObRes st (.mld f) 0xD5 f 0 ∧ s.RaisesObRes st (.mst f) 0xD6 f 0 :=
  ⟨fun hctx => State.raisesObRes_of_obTrap mmaBody rfl (mmaBody_of_not_holder hc hctx hh),
    State.raisesObRes_of_obTrap mconvBody rfl (asHolder_of_not_holder _ hc hh),
    State.raisesObRes_of_obTrap mzeroBody rfl (asHolder_of_not_holder _ hc hh),
    State.raisesObRes_of_obTrap mldstBody rfl (asHolder_of_not_holder _ hc hh),
    State.raisesObRes_of_obTrap mldstBody rfl (asHolder_of_not_holder _ hc hh)⟩

/-! ## `mwait` and `mstat` (R298, R299) -/

theorem Strand.lane_mapLanes (st : Strand) (m : Word) (g : Nat → Lane → Lane) (j : Nat) (hj : j < st.lanes.length) :
    (st.mapLanes m g).lane j = if inMask m j = true then g j (st.lane j) else st.lane j := by
  simp [Strand.mapLanes, Strand.lane, List.getD_eq_getElem?_getD, hj]

/-- The commands that a context has outstanding, by their numbers. -/
def State.outstanding (s : State) (cx : Nat) : List Nat :=
  s.cores.flatMap (fun e => (e.2.mqueue.filter (fun m => m.cx == cx)).map MCmd.id)

/-- A strand whose group parks at the run end until the commands `ids` have ended (R298). -/
def Strand.awaitCmds (st : Strand) (ids : List Nat) : Strand :=
  st.mapLanes st.group (fun _ l => { l with act := some .mwait, waitCmds := ids })

theorem Strand.lane_awaitCmds (st : Strand) (ids : List Nat) (j : Nat) (hj : j < st.lanes.length) :
    (st.awaitCmds ids).lane j = if inMask st.group j = true
      then { st.lane j with act := some .mwait, waitCmds := ((st.awaitCmds ids).lane j).waitCmds } else st.lane j := by
  rw [Strand.awaitCmds, Strand.lane_mapLanes _ _ _ j hj]
  split <;> rfl

theorem mwaitBody_eq (s : State) (st : Strand) (f : Rrr) :
    mwaitBody s (s.iss st (rrr 0xD7 f)) = .done ⟨s.putStrand s.cur (st.awaitCmds (s.outstanding st.cx)), .nothing, [], true⟩ := rfl

/-- `mwait` gives each lane of the group its commands to wait for, ends the run, and changes nothing else. -/
theorem mwait_parks (s : State) (st : Strand) (f : Rrr) (r : s.Ready st (rrr 0xD7 f)) :
    ∃ st', s.Does st (.mwait f) (rrr 0xD7 f) ⟨s.putStrand s.cur st', .nothing, [], true⟩ ∧ st' = { st with lanes := st'.lanes } ∧
      ∀ j < st.lanes.length, st'.lane j = if inMask st.group j = true
        then { st.lane j with act := some .mwait, waitCmds := (st'.lane j).waitCmds } else st.lane j :=
  ⟨_, congrArg _ (r.issue_putStrand mwaitBody _ .nothing true (mwaitBody_eq s st f) rfl rfl), rfl, st.lane_awaitCmds _⟩

/-- The word that `mstat` writes (R299). -/
def State.mstatWord (s : State) (st : Strand) (c : Cx) : Word :=
  let out := (s.cores.map (fun e => (e.2.mqueue.filter (fun m => m.cx == st.cx)).length)).sum
  let hold := if (s.core c.core).holder = some st.cx then 1 else 0
  BitVec.ofNat 32 (out * 2 ^ 28 + c.mstkcode * 2 ^ 24 + hold * 2 ^ 23 + c.mstk.toNat * 2 ^ 22 + c.mfstep % 65536)

/-- A context with no sticky status of its matrix commands. -/
def Cx.clearSticky (c : Cx) : Cx := { c with mstk := false, mstkcode := 0, mfstep := 0 }

theorem mstatBody_eq {s : State} {st : Strand} {c : Cx} {f : Rrr} (hc : s.cx st.cx = some c) :
    mstatBody s (s.iss st (rrr 0xD8 f)) = .done ⟨(s.putStrand s.cur
      (st.write32 st.group f.d.toNat (fun _ => s.mstatWord st c) (some (.u (s.mstatWord st c))))).updCx st.cx Cx.clearSticky,
      .reg f.d.toNat, [], false⟩ := by
  have hf : (s.iss st (rrr 0xD8 f)).h.f = f := rrr_f 0xD8 f (by decide)
  have hst : (s.iss st (rrr 0xD8 f)).st = st := rfl
  have hhold : (if (s.core c.core).holder == some st.cx then 2 ^ 23 else 0) =
      (if (s.core c.core).holder = some st.cx then 1 else 0) * 2 ^ 23 := by
    by_cases hh : (s.core c.core).holder = some st.cx <;> simp [hh]
  have hstk : (if c.mstk then 2 ^ 22 else 0) = c.mstk.toNat * 2 ^ 22 := by cases c.mstk <;> rfl
  simp only [mstatBody, hf, hst, hc, hhold, hstk]
  rfl

/-- A whole write of lane code leaves its register in the form it is given (R94). -/
theorem Strand.vreg_write32_whole (st : Strand) (m : Word) (d : Nat) (v : Nat → Word) (w : VReg) (hctx : st.ctx = .L) (hm : m ≠ 0)
    (hwhole : m = st.wholeMask) (hd : d < st.vregs.length) : (st.write32 m d v (some w)).vreg d = w := by
  unfold Strand.write32
  rw [if_neg hm]
  simp only [hctx, if_pos hwhole]
  simp [Strand.vreg, hd]

theorem Strand.write32_ctx_cx (st : Strand) (m : Word) (d : Nat) (v : Nat → Word) (w : Option VReg) :
    (st.write32 m d v w).ctx = st.ctx ∧ (st.write32 m d v w).cx = st.cx := by
  unfold Strand.write32
  split
  · exact ⟨rfl, rfl⟩
  · split <;> exact ⟨rfl, rfl⟩

/-- `mstat` writes its word to every lane of the group, U in a whole write, and clears the sticky status (R299). -/
theorem mstat_returns (s : State) (st : Strand) (c : Cx) (f : Rrr) (hc : s.cx st.cx = some c) (r : s.Ready st (rrr 0xD8 f)) :
    ∃ st', s.Does st (.mstat f) (rrr 0xD8 f) ⟨(s.putStrand s.cur st').updCx st.cx Cx.clearSticky, .reg f.d.toNat, [], false⟩ ∧
      st.Wrote32 st' st.group f.d.toNat (fun _ => s.mstatWord st c) ∧
      (st.ctx = .L → st.group = st.wholeMask → (st'.vreg f.d.toNat).tag = 0) := by
  have hd : f.d.toNat < 56 := r.dest rfl (by decide) rfl
  have hlive : ∀ k < 32, inMask st.group k = true → (st.lane k).st ≠ .never := fun k hk hin => by
    rw [(r.shaped.group k hk hin).1]; decide
  obtain ⟨hctx, hcx⟩ := st.write32_ctx_cx st.group f.d.toNat (fun _ => s.mstatWord st c) (some (.u (s.mstatWord st c)))
  refine ⟨_, congrArg _ (r.issue mstatBody _ (mstatBody_eq hc) ?_), ?_, fun hL hwhole => ?_⟩
  · refine (State.lacksBlock_updCx _ _ _ _ Cx.clearSticky fun _ => ⟨rfl, rfl, rfl⟩).trans ?_
    exact State.Room.lacks r.room r.cur rfl rfl hctx hcx
  · exact st.write32_wrote st.group f.d.toNat _ _ hd r.shaped.vregs r.shaped.sregs hlive fun _ w hw k _ _ => by
      obtain rfl : VReg.u (s.mstatWord st c) = w := Option.some.inj hw
      rfl
  · rw [st.vreg_write32_whole _ _ _ _ hL r.group_ne hwhole (by rw [r.shaped.vregs]; exact hd)]
    rfl

/-! ## An encoding that `mstat` does not have -/

/-- A three-register word whose row refuses it does not decode (R40). -/
theorem decodeWord_rrrWord_refused (op : Nat) (f : Rrr) (ho : op < 256) (hb : (builders.find? (·.1 == op)).isSome = true)
    (hw : wordOk op (rrrWord op f) = false) : decodeWord (rrrWord op f) = .error .illRes := by
  obtain ⟨hlt, hodd, -⟩ := Laws.Fits.rrrFits op f ho
  obtain ⟨b, hb⟩ := Option.isSome_iff_exists.1 hb
  have hop : opOf (rrrWord op f) = op := by
    have := f.s.isLt
    simp only [opOf, rrrWord]
    omega
  have hlow : rrrWord op f % 4294967296 = rrrWord op f := Nat.mod_eq_of_lt hlt
  simp [decodeWord, decodeLong, hodd rfl, hlow, hop, hb, hw]

/-- `mstat` has no a, b or sub-op field: a word with a bit set there is not its encoding. -/
theorem wordOk_mstat_res0 (f : Rrr) (h : f.a ≠ 0 ∨ f.b ≠ 0 ∨ f.x ≠ 0) : wordOk 0xD8 (rrrWord 0xD8 f) = false := by
  have hupper : rrrWord 0xD8 f / 2 ^ 16 = f.a.toNat + 64 * f.b.toNat + 4096 * f.x.toNat := by
    have := f.s.isLt; have := f.d.isLt
    simp only [rrrWord]
    omega
  have hmask : rrrWord 0xD8 f &&& 0xFFFF03FD ≠ 0x361 := fun heq => by
    have hzero : (rrrWord 0xD8 f &&& 0xFFFF03FD) / 2 ^ 16 = 0 := by rw [heq]; rfl
    have ha := f.a.isLt; have hb := f.b.isLt; have hx := f.x.isLt
    rw [Nat.and_div_two_pow, hupper, show 0xFFFF03FD / 2 ^ 16 = 2 ^ 16 - 1 from rfl, Nat.and_two_pow_sub_one_eq_mod] at hzero
    have : f.a.toNat = 0 ∧ f.b.toNat = 0 ∧ f.x.toNat = 0 := by omega
    simp only [ne_eq, ← BitVec.toNat_inj] at h
    exact h.elim (· this.1) (·.elim (· this.2.1) (· this.2.2))
  have hne : (rrrWord 0xD8 f &&& 0xFFFF03FD == 0x361) = false := by simpa using hmask
  simp only [wordOk, show opRow 0xD8 = some ⟨0xD8, 0xFFFF03FD, 0x00000361, 3, false, false, .reg, .no, .no⟩ from rfl, encOk, hne,
    Bool.false_and]

/-! ## O38 -/

/-- Settles O38: each clause is the lemma above of its instruction and case. -/
theorem matrixIssue : Obligations.MatrixIssue := by
  intro s st c f hc
  refine ⟨fun hr => ⟨fun hh => obres_of_holder s st c f hc hh hr, fun hh hq => obres_of_free s st c f hc hh hq hr⟩,
    fun cause hh hr => obres_refused s st c f cause hc (.inl hh) hr,
    fun r hh hr hready => ⟨obrel_of_waits s st c f r hc hh hr hready, obrel_of_released s st c f r hc hh hr hready⟩,
    obrel_of_absent s st c f hc,
    fun hh => ⟨fun a b hreg ha hb hpair => mma_enqueues s st c f a b hc hh hreg ha hb hpair,
      fun b hres0 hb hhalf => mconv_enqueues s st c f b hc hh hres0 hb hhalf, mzero_enqueues s st c f hc hh,
      mld_mst_enqueue s st c f hc hh⟩,
    commands_of_not_holder s st c f hc, mwait_parks s st f, mstat_returns s st c f hc,
    fun h => decodeWord_rrrWord_refused 0xD8 f (by decide) rfl (wordOk_mstat_res0 f h)⟩

end Sys2Proof.Machine

/-! PROOF. The software traps (spec 11_scheduling_and_preemption.md): what a precise trap leaves in each lane, the traps of
`brk` and `trapi`, the words that are no `trapi`, and O25. -/
namespace Sys2Proof.Machine

/-! ## A precise trap, lane by lane (R69) -/

/-- The record of a precise trap at `pc` of an instruction `len` bytes long: it resumes after the instruction. -/
def State.preciseRecord (s : State) (st : Strand) (k code : Nat) (pc : Va) (len detail : Nat) (addr : W64) : FaultRec :=
  { s.mkFault st k code pc addr 0 detail false with resume := pc + BitVec.ofNat 48 len }

/-- A lane parked with a fault record after those it holds. -/
def Lane.parkedWith (l : Lane) (r : FaultRec) : Lane := { l with st := .fault, flts := l.flts ++ [r] }

/-- A strand whose lanes of `m` have taken a precise trap and left the run. -/
def State.trapped (s : State) (st : Strand) (m : Word) (code : Nat) (pc : Va) (len detail : Nat) (addr : Nat → W64) : Strand :=
  { st.mapLanes m (fun k l => l.parkedWith (s.preciseRecord st k code pc len detail (addr k))) with
    run := st.run.map (fun r => { r with mask := r.mask &&& ~~~m }) }

theorem State.trapLanes_eq_trapped (s : State) (i : Nat) (m : Word) (code : Nat) (pc : Va) (len detail : Nat) (addr : Nat → W64)
    (st : Strand) (hs : s.strand i = some st) :
    s.trapLanes i m code pc len detail addr = s.putStrand i (s.trapped st m code pc len detail addr) :=
  State.updStrand_eq _ _ _ _ hs

section
variable (s : State) (st : Strand) (m : Word) (code : Nat) (pc : Va) (len detail : Nat) (addr : Nat → W64)

@[simp] theorem State.trapped_ctx : (s.trapped st m code pc len detail addr).ctx = st.ctx := rfl
@[simp] theorem State.trapped_cx : (s.trapped st m code pc len detail addr).cx = st.cx := rfl
@[simp] theorem State.trapped_vregs : (s.trapped st m code pc len detail addr).vregs = st.vregs := rfl
@[simp] theorem State.trapped_sregs : (s.trapped st m code pc len detail addr).sregs = st.sregs := rfl
@[simp] theorem State.trapped_pends : (s.trapped st m code pc len detail addr).pends = st.pends := rfl
@[simp] theorem State.trapped_lanes_length : (s.trapped st m code pc len detail addr).lanes.length = st.lanes.length := by
  simp [State.trapped, Strand.mapLanes]

theorem State.trapped_lane (k : Nat) (hk : k < st.lanes.length) : (s.trapped st m code pc len detail addr).lane k =
    if inMask m k = true then (st.lane k).parkedWith (s.preciseRecord st k code pc len detail (addr k)) else st.lane k :=
  st.lane_mapLanes m _ k hk

end

/-- A lane that takes a precise trap parks with its record, and keeps its address and predicates; another lane stays
as it was. -/
theorem State.trapped_lane_cases (s : State) (st : Strand) (m : Word) (code : Nat) (pc : Va) (len detail : Nat)
    (addr : Nat → W64) (k : Nat) (hk : k < st.lanes.length) :
    let l := (s.trapped st m code pc len detail addr).lane k
    if inMask m k = true then
      l.st = .fault ∧ l.preds = (st.lane k).preds ∧ l.pc = (st.lane k).pc ∧
        ∃ r, l.flts = (st.lane k).flts ++ [r] ∧ r.code = code ∧ r.pc = pc ∧ r.resume = pc + BitVec.ofNat 48 len ∧
          r.detail = BitVec.ofNat 32 detail ∧ r.wid = st.wid ∧ r.async = false ∧ r.recov = false
    else l = st.lane k := by
  rw [State.trapped_lane _ _ _ _ _ _ _ _ k hk]
  by_cases hm : inMask m k = true
  · rw [if_pos hm, if_pos hm]
    exact ⟨rfl, rfl, rfl, _, rfl, rfl, rfl, rfl, rfl, rfl, rfl, rfl⟩
  · rw [if_neg hm, if_neg hm]

/-! ## `brk` and `trapi` (R90, R335) -/

/-- The effect of a software trap: `code` in every lane of the group, with the 12-bit code of fields d and a. -/
def softwareTrap (code : Nat) (f : Rrr) (s : State) (x : Iss) : Act :=
  .done { s := s.trapLanes x.i x.m code x.pc 4 (f.d.toNat * 64 + f.a.toNat) }

/-- A ready software trap completes with its trap: it writes no strand but its own. -/
theorem State.Ready.issue_softwareTrap {s : State} {st : Strand} {h : Hd} (r : s.Ready st h) (code : Nat) (f : Rrr) :
    s.issue h (softwareTrap code f) =
      s.after st h ⟨s.trapLanes s.cur st.group code (s.iss st h).pc 4 (f.d.toNat * 64 + f.a.toNat), .nothing, [], false⟩ := by
  have hput := s.trapLanes_eq_trapped s.cur st.group code (s.iss st h).pc 4 (f.d.toNat * 64 + f.a.toNat) (fun _ => 0) st r.cur
  rw [hput]
  exact r.issue_putStrand _ _ .nothing false (congrArg (fun u => Act.done { s := u }) hput) (State.trapped_ctx ..)
    (State.trapped_cx ..)

theorem exec_brk (f : Rrr) (s : State) : exec (.brk f) s = .next (s.issue (rrr 0xB8 f) (softwareTrap 0x30 f)) := rfl
theorem exec_trapi (f : Rrr) (s : State) : exec (.trapi f) s = .next (s.issue (rrr 0xF4 f) (softwareTrap 0x31 f)) := rfl

/-! ## The words of `trapi` (R335) -/

/-- `trapi` has no b and no sub-op field: bits 22 and above of its encodings are 0. -/
theorem wordOk_trapi_res0 (f : Rrr) (hb : f.b ≠ 0) : wordOk 0xF4 (rrrWord 0xF4 f) = false := by
  have hupper : rrrWord 0xF4 f / 2 ^ 22 = f.b.toNat + 64 * f.x.toNat := by
    have := f.s.isLt; have := f.d.isLt; have := f.a.isLt
    simp only [rrrWord]
    omega
  have hmask : rrrWord 0xF4 f &&& 0xFFC003FD ≠ 0x3D1 := fun heq => hb <| by
    have hzero : (rrrWord 0xF4 f &&& 0xFFC003FD) / 2 ^ 22 = 0 := by rw [heq]; rfl
    have := f.b.isLt; have := f.x.isLt
    rw [Nat.and_div_two_pow, hupper, show 0xFFC003FD / 2 ^ 22 = 2 ^ 10 - 1 from rfl, Nat.and_two_pow_sub_one_eq_mod] at hzero
    exact BitVec.eq_of_toNat_eq (show f.b.toNat = 0 by omega)
  simp [wordOk, show opRow 0xF4 = some ⟨0xF4, 0xFFC003FD, 0x000003D1, 15, false, false, .no, .no, .no⟩ from rfl, encOk, hmask]

/-! ## O25 -/

/-- Settles O25: the traps of `brk` and `trapi`, the words of `trapi`, and what a precise trap leaves in each lane. -/
theorem softwareTraps : Obligations.SoftwareTraps := by
  refine ⟨fun s st f => ⟨fun r => ?brk, fun r => ?trapi⟩, rfl, rfl,
    fun f hb => decodeWord_rrrWord_refused 0xF4 f (by decide) rfl (wordOk_trapi_res0 f hb),
    fun s i st m code len detail pc hs => ?lanes⟩
  case brk => rw [State.Does, exec_brk, r.issue_softwareTrap]
  case trapi => rw [State.Does, exec_trapi, r.issue_softwareTrap]
  case lanes =>
    exact ⟨_, s.trapLanes_eq_trapped i m code pc len detail _ st hs, State.trapped_lanes_length .., State.trapped_vregs ..,
      State.trapped_sregs .., State.trapped_pends .., s.trapped_lane_cases st m code pc len detail _⟩

end Sys2Proof.Machine

/-! PROOF. The issue of the comb instructions (spec 12_comb_units.md): how a command enters the buffers of its banks, the
traps of a comb instruction, the effect of each instruction case by case, and O40. -/
namespace Sys2Proof.Machine

/-! ## Instances under updates (R338) -/

theorem tset_tset {α : Type} (t : Tab α) (n : Nat) (x y : α) : tset (tset t n x) n y = tset t n y := by
  induction t with
  | nil => simp [tset]
  | cons e t ih =>
    obtain ⟨k, v⟩ := e
    rcases Nat.lt_trichotomy n k with hlt | rfl | hgt
    · simp [tset, hlt]
    · simp [tset]
    · simp [tset, Nat.lt_asymm hgt, Nat.ne_of_lt hgt, ih]

theorem State.updInst_eq (s : State) (c : Nat) (g : Inst → Inst) (i : Inst) (hi : tget s.insts c = some i) :
    s.updInst c g = { s with insts := tset s.insts c (g i) } := by
  simp only [State.updInst, hi]

theorem State.updInst_updInst (s : State) (c : Nat) (g k : Inst → Inst) :
    (s.updInst c g).updInst c k = s.updInst c (fun i => k (g i)) := by
  cases hi : tget s.insts c with
  | none => simp only [State.updInst, hi]
  | some i => rw [State.updInst_eq s c g i hi, State.updInst_eq _ c k _ (tget_tset_same ..), State.updInst_eq s c _ i hi, tset_tset]

@[simp] theorem State.updInst_strands (s : State) (c : Nat) (g : Inst → Inst) : (s.updInst c g).strands = s.strands := by
  unfold State.updInst; split <;> rfl
@[simp] theorem State.updInst_cxs (s : State) (c : Nat) (g : Inst → Inst) : (s.updInst c g).cxs = s.cxs := by
  unfold State.updInst; split <;> rfl

theorem asInst_of_instOf {s : State} {x : Iss} {i : Inst} (hi : s.instOf x.st = some i) (body : Inst → Act) :
    asInst s x body = body i := by
  simp only [asInst, hi]

/-! ## The buffers of the banks (R343) -/

theorem Inst.banks_nodup (i : Inst) : i.banks.Nodup := by
  unfold Inst.banks
  split
  · exact List.nodup_range
  · exact List.nodup_singleton _

theorem State.bank_setBank (s : State) (chan k j : Nat) (g : Bank → Bank) :
    (s.setBank chan k g).bank chan j = if j = k then g (s.bank chan k) else s.bank chan j := by
  by_cases h : j = k
  · subst h; simp [State.bank, tgetD]
  · simp [State.bank, tgetD, tget_tset_ne _ _ _ _ (show 16 * chan + j ≠ 16 * chan + k by omega), h]

/-- A command placed at the end of the buffers of the banks `ks` of a pseudo-channel. -/
def State.bufferIn (s : State) (chan : Nat) (ks : List Nat) (q : CCmd) : State :=
  ks.foldl (fun s k => s.setBank chan k (fun y => { y with buf := y.buf ++ [q] })) s

theorem State.bufferIn_frame (s : State) (chan : Nat) (ks : List Nat) (q : CCmd) :
    s.bufferIn chan ks q = { s with banks := (s.bufferIn chan ks q).banks } := by
  induction ks generalizing s with
  | nil => rfl
  | cons k ks ih => exact ih (s.setBank chan k _)

theorem State.bufferIn_buf (s : State) (chan : Nat) (ks : List Nat) (q : CCmd) (hks : ks.Nodup) (j : Nat) :
    ((s.bufferIn chan ks q).bank chan j).buf = if j ∈ ks then (s.bank chan j).buf ++ [q] else (s.bank chan j).buf := by
  induction ks generalizing s with
  | nil => rfl
  | cons k ks ih =>
    obtain ⟨hk, hks⟩ := List.nodup_cons.1 hks
    rw [State.bufferIn, List.foldl_cons, ← State.bufferIn, ih _ hks, State.bank_setBank]
    by_cases hj : j = k
    · subst hj; simp [hk]
    · simp [hj]

/-! ## A command enters its banks' buffers (R343) -/

/-- The command of an instruction of the current strand, with operand values `va` and `vb`. -/
def newCCmd (s : State) (st : Strand) (h : Hd) (va vb : W64) : CCmd where
  id := s.nextId
  op := h.row.op
  f := h.f
  inst := st.cx
  fn := s.fnOf st
  slice := s.fnOf st
  die := dieOfUnit (s.unitOf st)
  aVal := va
  bVal := vb
  eff := none
  ord := (st.lane 0).ord
  parity := false

/-- The state in which instance `i` has given command `q` to the banks it selects. -/
def State.giveCmd (s : State) (i : Inst) (q : CCmd) : State :=
  { s with
    banks := (s.bufferIn i.modeChan i.banks q).banks
    insts := tset s.insts q.inst { i with outCmds := i.outCmds ++ [q.id] }
    nextId := s.nextId + 1 }

/-- The neighbourhood of a buffer stall of instance `i`: the instances that select a bank of its with one free entry at most. -/
def State.nearBuffers (s : State) (i : Inst) (t : Strand) : Bool :=
  (s.instOf t).any (fun j => j.modeChan == i.modeChan &&
    j.banks.any (fun k => i.banks.contains k && decide (63 ≤ (s.bank i.modeChan k).buf.length)))

theorem combPlace_of_room {s : State} {st : Strand} {i : Inst} {h : Hd} (va vb : W64) (hi : s.instOf st = some i)
    (hroom : ∀ k ∈ i.banks, (s.bank i.modeChan k).buf.length < 64) (hreset : s.chanReset i.modeChan = false)
    (hturn : s.queuesBehind s.cur .comb (s.nearBuffers i) = false) :
    combPlace s (s.iss st h) i va vb = .done { s := s.giveCmd i (newCCmd s st h va vb) } := by
  have hfull : i.banks.any (fun k => decide (64 ≤ (s.bank i.modeChan k).buf.length)) = false := by
    simpa [List.any_eq_false] using hroom
  have hwait : (i.banks.any (fun k => decide (64 ≤ (s.bank i.modeChan k).buf.length)) || s.chanReset i.modeChan ||
      s.queuesBehind s.cur .comb (s.nearBuffers i)) = false := by
    rw [hfull, hreset, hturn]; rfl
  have hinst : tget (s.bufferIn i.modeChan i.banks (newCCmd s st h va vb)).insts st.cx = some i := by
    rw [State.bufferIn_frame]; exact hi
  calc combPlace s (s.iss st h) i va vb
      = .done { s := { (s.bufferIn i.modeChan i.banks (newCCmd s st h va vb)).updInst st.cx
          (fun i => { i with outCmds := i.outCmds ++ [s.nextId] }) with
            nextId := (s.bufferIn i.modeChan i.banks (newCCmd s st h va vb)).nextId + 1 } } := if_neg (Bool.eq_false_iff.1 hwait)
    _ = .done { s := s.giveCmd i (newCCmd s st h va vb) } := by
      rw [State.updInst_eq _ _ _ _ hinst, State.bufferIn_frame]; rfl

/-- Where each selected bank has room and no group stands before it there, a ready instruction `ins` of instance `i` puts
its command, with operand values `va` and `vb`, at the end of every selected bank's buffer, and the command is outstanding. -/
def State.Buffers (s : State) (st : Strand) (i : Inst) (f : Rrr) (ins : Instr) (op : Nat) (va vb : W64) : Prop :=
  s.Ready st (rrr op f) → (∀ k ∈ i.banks, (s.bank i.modeChan k).buf.length < 64) → s.chanReset i.modeChan = false →
    s.queuesBehind s.cur .comb (s.nearBuffers i) = false →
    ∃ (u : State) (q : CCmd), s.Does st ins (rrr op f) ⟨u, .nothing, [], false⟩ ∧ q.id = s.nextId ∧ q.op = op ∧
      q.inst = st.cx ∧ q.fn = s.fnOf st ∧ q.aVal = va ∧ q.bVal = vb ∧ q.f = (rrr op f).f ∧ q.ord = (st.lane 0).ord ∧ u.strands = s.strands ∧
      s.SameMemory u ∧ (u.instOf st).map Inst.outCmds = some (i.outCmds ++ [q.id]) ∧
      ∀ k, (u.bank i.modeChan k).buf = if k ∈ i.banks then (s.bank i.modeChan k).buf ++ [q] else (s.bank i.modeChan k).buf

theorem State.buffers_of_combPlace {s : State} {st : Strand} {i : Inst} {f : Rrr} {ins : Instr} {op : Nat} {va vb : W64}
    (body : State → Iss → Act) (hexec : exec ins s = .next (s.issue (rrr op f) body)) (hrow : (opRow op).isSome = true)
    (hi : s.instOf st = some i) (hbody : body s (s.iss st (rrr op f)) = combPlace s (s.iss st (rrr op f)) i va vb) :
    s.Buffers st i f ins op va vb := by
  intro r hroom hreset hturn
  refine ⟨s.giveCmd i (newCCmd s st (rrr op f) va vb), newCCmd s st (rrr op f) va vb, ?_, rfl, rrr_row_op op f hrow, rfl, rfl,
    rfl, rfl, rfl, rfl, rfl, ⟨fun _ => rfl, rfl, rfl⟩, ?_, fun k => s.bufferIn_buf i.modeChan i.banks _ i.banks_nodup k⟩
  · rw [State.Does, hexec, r.issue_of_strand_eq body _ (hbody.trans (combPlace_of_room va vb hi hroom hreset hturn)) rfl]
  · exact congrArg (Option.map Inst.outCmds) (tget_tset_same ..)

/-! ## Traps of the comb instructions -/

/-- In a ready strand instruction `ins` raises `code` in every lane of the group, with address `addr` in its records. -/
def State.RaisesComb (s : State) (st : Strand) (f : Rrr) (ins : Instr) (op code : Nat) (addr : W64 := 0) : Prop :=
  s.Ready st (rrr op f) →
    s.Does st ins (rrr op f) ⟨s.trapLanes s.cur st.group code (s.iss st (rrr op f)).pc 4 0 (fun _ => addr), .nothing, [], false⟩

theorem combTrap_rrr (s t : State) (st : Strand) (op : Nat) (f : Rrr) (code detail : Nat) (addr : W64) :
    combTrap t (s.iss st (rrr op f)) code detail addr =
      .done { s := t.trapLanes s.cur st.group code (s.iss st (rrr op f)).pc 4 detail (fun _ => addr) } := by
  have hlen : (rrr op f).len = 4 := by unfold rrr hdOf; split <;> rfl
  simp only [combTrap, State.iss, hlen]

theorem State.raisesComb_of_combTrap {s : State} {st : Strand} {f : Rrr} {ins : Instr} {op code : Nat} {addr : W64}
    (body : State → Iss → Act) (hexec : exec ins s = .next (s.issue (rrr op f) body))
    (hbody : body s (s.iss st (rrr op f)) = combTrap s (s.iss st (rrr op f)) code 0 addr) :
    s.RaisesComb st f ins op code addr := by
  intro r
  have hput := s.trapLanes_eq_trapped s.cur st.group code (s.iss st (rrr op f)).pc 4 0 (fun _ => addr) st r.cur
  rw [combTrap_rrr, hput] at hbody
  rw [State.Does, hexec, hput, r.issue_putStrand body _ .nothing false hbody (State.trapped_ctx ..) (State.trapped_cx ..)]

/-! ## The source pointers of `cbcast` and `ctbl.wr` (R351, R356) -/

/-- A source pointer that names DRAM of a space that comb units read. -/
def SourceNamed (p : W64) : Prop :=
  (bits p.toNat 63 60 = 0 ∨ bits p.toNat 63 60 = 5) ∧ (locate .S p 0 false).isRight

/-- A source pointer to virtual memory, or to the stack that the strand runs on. -/
def State.SourceNear (s : State) (st : Strand) (p : W64) : Prop :=
  bits p.toNat 63 60 = 0 ∨ bits p.toNat 59 56 = (s.unitOf st - 1024) / 16

/-- The checks of `combSource` in order, on the pointer that the word's fields name. -/
theorem combSource_rrr (s : State) (st : Strand) {op : Nat} (f : Rrr) (stride : Nat) (go : Act) (ho : op < 256) :
    let x := s.iss st (rrr op f)
    let p := st.pair 0 f.a.toNat
    combSource s x stride go =
      if bits p.toNat 63 60 != 0 && bits p.toNat 63 60 != 5 then combTrap s x 0x07
      else if !(locate .S p 0 false).isRight then combTrap s x 0x07
      else if bits p.toNat 63 60 == 5 && bits p.toNat 59 56 != (s.unitOf st - 1024) / 16 then combTrap s x 0x07 0 p
      else if p.toNat % 64 != 0 || stride % 64 != 0 then combTrap s x 0x06 0 p
      else go := by
  intro x p
  have hp : x.st.pair 0 x.h.f.a.toNat = p := by rw [show x.h.f = f from rrr_f op f ho]; rfl
  simp only [combSource, hp, BitVec.ofNat_toNat, BitVec.setWidth_eq]
  cases locate .S p 0 false <;> rfl

section
variable {s : State} {st : Strand} {op : Nat} {f : Rrr} {p : W64} {stride : Nat} {go : Act} (ho : op < 256)
  (hp : st.pair 0 f.a.toNat = p)
include ho hp

theorem combSource_of_not_named (hn : ¬ SourceNamed p) :
    combSource s (s.iss st (rrr op f)) stride go = combTrap s (s.iss st (rrr op f)) 0x07 := by
  rw [combSource_rrr s st f stride go ho, hp]
  by_cases hspace : bits p.toNat 63 60 = 0 ∨ bits p.toNat 63 60 = 5
  · have hloc : (locate .S p 0 false).isRight = false := Bool.eq_false_iff.2 fun h => hn ⟨hspace, h⟩
    simp [hloc]
  · obtain ⟨h0, h5⟩ := not_or.1 hspace
    simp [h0, h5]

theorem combSource_of_named (hn : SourceNamed p) :
    combSource s (s.iss st (rrr op f)) stride go =
      if bits p.toNat 63 60 == 5 && bits p.toNat 59 56 != (s.unitOf st - 1024) / 16 then
        combTrap s (s.iss st (rrr op f)) 0x07 0 p
      else if p.toNat % 64 != 0 || stride % 64 != 0 then combTrap s (s.iss st (rrr op f)) 0x06 0 p
      else go := by
  obtain ⟨hspace, hloc⟩ := hn
  rw [combSource_rrr s st f stride go ho, hp, hloc]
  rcases hspace with h | h <;> simp [h]

theorem combSource_of_far (hn : SourceNamed p) (hfar : ¬ s.SourceNear st p) :
    combSource s (s.iss st (rrr op f)) stride go = combTrap s (s.iss st (rrr op f)) 0x07 0 p := by
  obtain ⟨hspace, hdie⟩ := not_or.1 hfar
  rw [combSource_of_named ho hp hn, hn.1.resolve_left hspace]
  simp [hdie]

theorem combSource_of_near (hn : SourceNamed p) (hnear : s.SourceNear st p) :
    combSource s (s.iss st (rrr op f)) stride go =
      if p.toNat % 64 != 0 || stride % 64 != 0 then combTrap s (s.iss st (rrr op f)) 0x06 0 p else go := by
  rw [combSource_of_named ho hp hn]
  rcases hnear with h | h <;> simp [h]

end

/-- A command with a source pointer: the traps of the pointer and the stride, else the command. -/
theorem State.sourced_of_combSource {s : State} {st : Strand} {i : Inst} {f : Rrr} {ins : Instr} {op stride : Nat} {vb : W64}
    (body : State → Iss → Act) (hexec : exec ins s = .next (s.issue (rrr op f) body)) (ho : op < 256)
    (hrow : (opRow op).isSome = true) (hi : s.instOf st = some i)
    (hbody : body s (s.iss st (rrr op f)) = combSource s (s.iss st (rrr op f)) stride
      (combPlace s (s.iss st (rrr op f)) i (st.pair 0 f.a.toNat) vb)) :
    let p := st.pair 0 f.a.toNat
    (¬ SourceNamed p → s.RaisesComb st f ins op 0x07) ∧
    (SourceNamed p → ¬ s.SourceNear st p → s.RaisesComb st f ins op 0x07 p) ∧
    (SourceNamed p → s.SourceNear st p → (p.toNat % 64 ≠ 0 ∨ stride % 64 ≠ 0) → s.RaisesComb st f ins op 0x06 p) ∧
    (SourceNamed p → s.SourceNear st p → p.toNat % 64 = 0 → stride % 64 = 0 → s.Buffers st i f ins op p vb) := by
  intro p
  refine ⟨fun hn => ?unnamed, fun hn hfar => ?far, fun hn hnear hodd => ?odd, fun hn hnear hp hs => ?placed⟩
  case unnamed => exact State.raisesComb_of_combTrap body hexec (hbody.trans (combSource_of_not_named ho rfl hn))
  case far => exact State.raisesComb_of_combTrap body hexec (hbody.trans (combSource_of_far ho rfl hn hfar))
  case odd =>
    refine State.raisesComb_of_combTrap body hexec (hbody.trans ((combSource_of_near ho rfl hn hnear).trans (if_pos ?_)))
    simpa using hodd
  case placed =>
    refine State.buffers_of_combPlace body hexec hrow hi (hbody.trans ((combSource_of_near ho rfl hn hnear).trans (if_neg ?_)))
    simp [show (st.pair 0 f.a.toNat).toNat % 64 = 0 from hp, hs]

theorem cbcast_sourced (s : State) (st : Strand) (i : Inst) (f : Rrr) (hi : s.instOf st = some i) :
    cbcastBody s (s.iss st (rrr 0xE1 f)) = combSource s (s.iss st (rrr 0xE1 f)) (st.src 0 f.b).toNat
      (combPlace s (s.iss st (rrr 0xE1 f)) i (st.pair 0 f.a.toNat) ((st.src 0 f.b).setWidth 64)) := by
  have hf : (s.iss st (rrr 0xE1 f)).h.f = f := rrr_f 0xE1 f (by decide)
  rw [cbcastBody, asInst_of_instOf hi, hf]
  rfl

theorem ctblWr_sourced (s : State) (st : Strand) (i : Inst) (f : Rrr) (hi : s.instOf st = some i) :
    ctblWrBody s (s.iss st (rrr 0xEA f)) = combSource s (s.iss st (rrr 0xEA f)) 0
      (combPlace s (s.iss st (rrr 0xEA f)) i (st.pair 0 f.a.toNat) 0) := by
  have hf : (s.iss st (rrr 0xEA f)).h.f = f := rrr_f 0xEA f (by decide)
  rw [ctblWrBody, asInst_of_instOf hi, hf]
  rfl

/-! ## Commands without a source pointer (R349, R352 to R358) -/

theorem combCmd_places {s : State} {st : Strand} {i : Inst} {op : Nat} (f : Rrr) (ho : op < 256)
    (hrow : (opRow op).isSome = true) (hi : s.instOf st = some i) :
    combCmd s (s.iss st (rrr op f)) = combPlace s (s.iss st (rrr op f)) i ((st.src 0 f.a).setWidth 64)
      (if op = 0xE9 then st.pair 0 f.b.toNat else 0) := by
  have hf : (s.iss st (rrr op f)).h.f = f := rrr_f op f ho
  have hop : (s.iss st (rrr op f)).h.row.op = op := rrr_row_op op f hrow
  rw [combCmd, asInst_of_instOf hi, hf, hop]
  simp only [beq_iff_eq]
  rfl

/-- A row move of an even sector is a command, and of an odd sector a trap (R349). -/
theorem combRow_rrr {s : State} {st : Strand} {op : Nat} (f : Rrr) (ho : op < 256) :
    combRow s (s.iss st (rrr op f)) =
      if (st.src 0 f.a).getLsbD 16 then combTrap s (s.iss st (rrr op f)) 0x06 else combCmd s (s.iss st (rrr op f)) := by
  have hf : (s.iss st (rrr op f)).h.f = f := rrr_f op f ho
  rw [combRow, hf]
  rfl

theorem State.raisesComb_of_odd_row {s : State} {st : Strand} {f : Rrr} {ins : Instr} {op : Nat}
    (hexec : exec ins s = .next (s.issue (rrr op f) combRow)) (ho : op < 256) (hodd : (st.src 0 f.a).getLsbD 16 = true) :
    s.RaisesComb st f ins op 0x06 :=
  State.raisesComb_of_combTrap combRow hexec ((combRow_rrr f ho).trans (if_pos hodd))

theorem State.buffers_of_row {s : State} {st : Strand} {i : Inst} {f : Rrr} {ins : Instr} {op : Nat}
    (hexec : exec ins s = .next (s.issue (rrr op f) combRow)) (ho : op < 256) (hrow : (opRow op).isSome = true) (hne : op ≠ 0xE9)
    (hi : s.instOf st = some i) (heven : (st.src 0 f.a).getLsbD 16 = false) :
    s.Buffers st i f ins op ((st.src 0 f.a).setWidth 64) 0 := by
  refine State.buffers_of_combPlace combRow hexec hrow hi ?_
  rw [combRow_rrr f ho, if_neg (Bool.eq_false_iff.1 heven), combCmd_places f ho hrow hi, if_neg hne]

/-! ## `cmode` (R350) -/

/-- The pseudo-channel of its own stack that a mode word names. -/
def State.modeWordChan (s : State) (st : Strand) (a : Word) : Nat := 64 * ((s.unitOf st - 1024) / 16) + a.toNat % 64

/-- An instance with the mode that the word `a` and field `f.x` of `cmode` set. -/
def Inst.withMode (i : Inst) (chan : Nat) (a : Word) (f : Rrr) : Inst :=
  { i with all := f.x.getLsbD 0, modeChan := chan, modeBank := if f.x.getLsbD 0 then 0 else bits a.toNat 9 6 }

theorem cmodeBody_eq {s : State} {st : Strand} {i : Inst} (f : Rrr) (hi : s.instOf st = some i) :
    let x := s.iss st (rrr 0xE0 f)
    let a := st.src 0 f.a
    cmodeBody s x =
      if bits a.toNat 5 2 ≠ s.unitOf st % 16 then combTrap s x 0x07
      else if s.chanOpen (s.fnOf st) (s.modeWordChan st a) = false then combTrap s x 0x0B
      else .done { s := s.updInst st.cx (fun i => i.withMode (s.modeWordChan st a) a f) } := by
  intro x a
  have hf : x.h.f = f := rrr_f 0xE0 f (by decide)
  have hlow : bits a.toNat 5 0 = a.toNat % 64 := by simp [bits]
  rw [cmodeBody, asInst_of_instOf hi, hf]
  simp only [show x.st = st from rfl, show st.src 0 f.a = a from rfl, hlow, bne_iff_ne, Bool.not_eq_true']
  rfl

/-- A ready instruction that changes its instance alone completes with that change. -/
theorem State.Ready.issue_updInst {s : State} {st : Strand} {h : Hd} (r : s.Ready st h) (body : State → Iss → Act) (c : Nat)
    (g : Inst → Inst) (hb : body s (s.iss st h) = .done { s := s.updInst c g }) :
    s.issue h body = s.after st h ⟨s.updInst c g, .nothing, [], false⟩ :=
  r.issue_of_strand_eq body _ hb (congrArg (tget · s.cur) (State.updInst_strands ..))

theorem cmode_cases (s : State) (st : Strand) (i : Inst) (f : Rrr) (hi : s.instOf st = some i) :
    let a := st.src 0 f.a
    (bits a.toNat 5 2 = s.unitOf st % 16 → s.chanOpen (s.fnOf st) (s.modeWordChan st a) = true → s.Ready st (rrr 0xE0 f) →
      s.Does st (.cmode f) (rrr 0xE0 f)
        ⟨s.updInst st.cx (fun i => i.withMode (s.modeWordChan st a) a f), .nothing, [], false⟩) ∧
    (bits a.toNat 5 2 ≠ s.unitOf st % 16 → s.RaisesComb st f (.cmode f) 0xE0 0x07) ∧
    (bits a.toNat 5 2 = s.unitOf st % 16 → s.chanOpen (s.fnOf st) (s.modeWordChan st a) = false →
      s.RaisesComb st f (.cmode f) 0xE0 0x0B) := by
  intro a
  have hbody := cmodeBody_eq f hi
  refine ⟨fun hunit hopen r => ?opens, fun hunit => ?otherUnit, fun hunit hclosed => ?closed⟩
  case opens =>
    have hdone := hbody.trans ((if_neg (not_not.2 hunit)).trans (if_neg (by rw [hopen]; decide)))
    exact congrArg _ (r.issue_updInst cmodeBody _ _ hdone)
  case otherUnit => exact State.raisesComb_of_combTrap cmodeBody rfl (hbody.trans (if_pos hunit))
  case closed =>
    exact State.raisesComb_of_combTrap cmodeBody rfl (hbody.trans ((if_neg (not_not.2 hunit)).trans (if_pos hclosed)))

/-! ## `csync` and `cstat` (R359, R360) -/

/-- An instance without a sticky status. -/
def Inst.clearStatus (i : Inst) : Inst := { i with stk := false, stkcode := 0, bank := 0, pch := 0 }

/-- A strand whose group has the writes `ws` in its history, and follows them. -/
def Strand.joinWrites (st : Strand) (ws : List (Nat × Path)) : Strand :=
  st.mapLanes st.group (fun _ l =>
    { l with ord := { l.ord with hist := addWrites l.ord.hist ws, must := addWrites l.ord.must ws } })

/-- The state a `csync` leaves before it reports: the writes of the ended commands are the group's, and the sticky status
is clear. -/
def State.synced (s : State) (st : Strand) (i : Inst) : State :=
  { s.putStrand s.cur (st.joinWrites i.wids) with
    insts := tset s.insts st.cx { (if i.stk then i.clearStatus else i) with wids := [] } }

theorem csync_waits (s : State) (st : Strand) (i : Inst) (f : Rrr) (hi : s.instOf st = some i) (r : s.Ready st (rrr 0xEC f))
    (hout : i.outCmds ≠ []) : exec (.csync f) s = .next (s.setStall s.cur .fence) := by
  refine congrArg _ (r.issue_stall csyncBody .fence ?_)
  rw [csyncBody, asInst_of_instOf hi, if_pos (by simpa using hout)]

theorem csyncBody_of_ended {s : State} {st : Strand} {i : Inst} {f : Rrr} (hi : s.instOf st = some i)
    (hs : s.strand s.cur = some st) (hout : i.outCmds = []) :
    csyncBody s (s.iss st (rrr 0xEC f)) = if i.stk then
        combTrap (s.synced st i) (s.iss st (rrr 0xEC f)) 0x22 (i.stkcode + 48 + i.bank * 256 + i.pch * 65536)
      else .done { s := s.synced st i } := by
  have hstrand : s.updStrand s.cur (fun t => t.mapLanes st.group (fun _ l =>
      { l with ord := { l.ord with hist := addWrites l.ord.hist i.wids, must := addWrites l.ord.must i.wids } })) =
      s.putStrand s.cur (st.joinWrites i.wids) := State.updStrand_eq _ _ _ _ hs
  have hinst : tget (s.putStrand s.cur (st.joinWrites i.wids)).insts st.cx = some i := hi
  have hkeep (h : i.stk = false) :
      (s.putStrand s.cur (st.joinWrites i.wids)).updInst st.cx (fun i => { i with wids := [] }) = s.synced st i := by
    rw [State.updInst_eq _ _ _ i hinst, State.synced, if_neg (Bool.eq_false_iff.1 h)]; rfl
  have hclear (h : i.stk = true) :
      ((s.putStrand s.cur (st.joinWrites i.wids)).updInst st.cx (fun i => { i with wids := [] })).updInst st.cx Inst.clearStatus =
        s.synced st i := by
    rw [State.updInst_updInst, State.updInst_eq _ _ _ i hinst, State.synced, if_pos h]; rfl
  have hempty : (!i.outCmds.isEmpty) = false := by rw [hout]; rfl
  rw [csyncBody, asInst_of_instOf hi]
  simp only [hempty, Bool.false_eq_true, if_false, State.iss, hstrand]
  split
  · next hstk => exact congrArg (combTrap · _ 0x22 _) (hclear hstk)
  · next hstk => exact congrArg (fun u => Act.done { s := u }) (hkeep (Bool.eq_false_iff.2 hstk))

theorem csync_reports (s : State) (st : Strand) (i : Inst) (f : Rrr) (hi : s.instOf st = some i) (r : s.Ready st (rrr 0xEC f))
    (hout : i.outCmds = []) :
    (i.stk = false → s.Does st (.csync f) (rrr 0xEC f) ⟨s.synced st i, .nothing, [], false⟩) ∧
    (i.stk = true → s.Does st (.csync f) (rrr 0xEC f) ⟨(s.synced st i).trapLanes s.cur st.group 0x22
      (s.iss st (rrr 0xEC f)).pc 4 (i.stkcode + 48 + i.bank * 256 + i.pch * 65536), .nothing, [], false⟩) := by
  have hbody := csyncBody_of_ended (f := f) hi r.cur hout
  refine ⟨fun hstk => congrArg _ (r.issue csyncBody _ (hbody.trans (if_neg (Bool.eq_false_iff.1 hstk))) ?_), fun hstk => ?_⟩
  · exact State.Room.lacks (b := st.joinWrites i.wids) r.room r.cur rfl rfl rfl rfl
  · rw [if_pos hstk, combTrap_rrr] at hbody
    obtain ⟨b, hput, hctx, hcx⟩ := (s.synced st i).trapLanes_eq_putStrand s.cur st.group 0x22 (s.iss st (rrr 0xEC f)).pc 4
      (i.stkcode + 48 + i.bank * 256 + i.pch * 65536) (fun _ => 0) (st.joinWrites i.wids) (tget_tset_same ..)
    refine congrArg _ (r.issue csyncBody _ hbody ?_)
    rw [hput]
    exact State.Room.lacks (b := b) r.room r.cur (tset_tset ..) rfl hctx hcx

/-- What a 64-bit write of a wide context does. -/
theorem Strand.write64_wrote_of_wide (st : Strand) (m : Word) (d : Nat) (v : Nat → W64) (w : Option W64)
    (hwide : st.ctx.wide = true) (hd : d < st.sregs.length) : st.Wrote64 (st.write64 m d v w) m d v := by
  by_cases hm : m = 0
  · simp [Strand.write64, Strand.Wrote64, hm, hwide]
  · have hw : st.write64 m d v w = { st with sregs := st.sregs.set d (v 0) } := by
      rw [Strand.write64, if_neg hm, if_pos hwide]
    rw [hw, Strand.Wrote64, if_pos hwide]
    exact ⟨rfl, fun h => absurd h hm, rfl, rfl, fun n hn => by simp [Strand.sreg, hn.symm], fun _ => by simp [Strand.sreg, hd]⟩

theorem cstat_returns (s : State) (st : Strand) (i : Inst) (f : Rrr) (hi : s.instOf st = some i) (hS : st.ctx = .S)
    (r : s.Ready st (rrr 0xED f)) :
    ∃ st', s.Does st (.cstat f) (rrr 0xED f)
        ⟨(s.putStrand s.cur st').updInst st.cx Inst.clearStatus, .reg f.d.toNat, [], false⟩ ∧
      st.Wrote64 st' st.group f.d.toNat (fun _ => BitVec.ofNat 64 (s.cstatWord i)) := by
  have hf : (s.iss st (rrr 0xED f)).h.f = f := rrr_f 0xED f (by decide)
  have hwide : st.ctx.wide = true := by rw [hS]; rfl
  have hd : f.d.toNat < st.sregs.length := by rw [r.shaped.sregs]; exact r.dest rfl (by decide) rfl
  have hwrote := st.write64_wrote_of_wide st.group f.d.toNat (fun _ => BitVec.ofNat 64 (s.cstatWord i)) none hwide hd
  have hstrand := hwrote.1
  refine ⟨_, congrArg _ (r.issue cstatBody _ ?_ ?_), hwrote⟩
  · rw [cstatBody, asInst_of_instOf hi, hf]
    rfl
  · exact State.Room.lacks (b := st.write64 st.group f.d.toNat _ none) r.room r.cur (State.updInst_strands ..)
      (State.updInst_cxs ..) (by rw [hstrand]) (by rw [hstrand])

/-! ## O40 -/

/-- Settles O40: each clause is the lemma above of its instruction and case. -/
theorem combIssue : Obligations.CombIssue := by
  intro s st i f hi hS a p sync puts space there near traps sourced
  refine ⟨cmode_cases s st i f hi,
    State.sourced_of_combSource cbcastBody rfl (by decide) rfl hi (cbcast_sourced s st i f hi),
    State.sourced_of_combSource ctblWrBody rfl (by decide) rfl hi (ctblWr_sourced s st i f hi),
    fun heven => ⟨State.buffers_of_row rfl (by decide) rfl (by decide) hi heven,
      State.buffers_of_row rfl (by decide) rfl (by decide) hi heven,
      State.buffers_of_row rfl (by decide) rfl (by decide) hi heven⟩,
    fun hodd => ⟨State.raisesComb_of_odd_row rfl (by decide) hodd, State.raisesComb_of_odd_row rfl (by decide) hodd,
      State.raisesComb_of_odd_row rfl (by decide) hodd⟩,
    State.buffers_of_combPlace combCmd rfl rfl hi (combCmd_places f (by decide) rfl hi),
    State.buffers_of_combPlace combCmd rfl rfl hi (combCmd_places f (by decide) rfl hi),
    State.buffers_of_combPlace combCmd rfl rfl hi (combCmd_places f (by decide) rfl hi),
    State.buffers_of_combPlace _ rfl rfl hi (asInst_of_instOf hi _),
    State.buffers_of_combPlace _ rfl rfl hi (asInst_of_instOf hi _),
    State.buffers_of_combPlace _ rfl rfl hi (asInst_of_instOf hi _),
    fun r hout => csync_waits s st i f hi r hout,
    fun r hout => ⟨s.synced st i, rfl, ⟨fun _ => rfl, rfl, rfl⟩, csync_reports s st i f hi r hout⟩,
    fun r => cstat_returns s st i f hi hS r⟩

end Sys2Proof.Machine
